-- ==== Sys2Proof/Word.lean ====
section
/-! DEFINITION. The word types of ZCTB: 16-bit registers, 8-bit byte offsets, 32-bit operation
words and 8-bit event codes (00_scope.md R6, R8; 30_encoding.md R81, R89). -/

namespace Sys2Proof

/-- A register, a timestamp, a duration in ticks: TW = 16 bits (00_scope.md R6). -/
abbrev Word := BitVec 16

/-- A byte offset in the register space (20_memory.md R60). -/
abbrev Addr := BitVec 8

/-- An operation word: "exactly 32 bits" (30_encoding.md R81). -/
abbrev OpWord := BitVec 32

/-- The code of an internal action of TICK (30_encoding.md R89). -/
abbrev EventCode := BitVec 8

/-- What an instruction of the opcode table is encoded as: an operation word, or, for the sixteen rows
of format `event`, an event code. The two are kept apart because an event "is never decoded from a
word" (30_encoding.md R89). -/
inductive Code where
  | op (w : OpWord)
  | event (c : EventCode)
deriving DecidableEq, Repr

end Sys2Proof
end

