-- ==== Sys2Proof/Config.lean ====
section
/-! DEFINITION. The implementation parameters of ZCTB (00_scope.md R6, R7). A parameter the spec
leaves OPEN is an opaque constant without a body, so that no proof can see its value. -/

namespace Sys2Proof.Config

/-- The parameters a rule of the block reads. "A model takes TRIAC_MIN_DELAY and TRIAC_EXTEND as
configuration" (00_scope.md R6); the three values the source states are named as well, as
93_implementation_defined.md I7 asks. -/
structure Params where
  /-- TRIAC_MIN_DELAY, the §4.2 threshold (42_triac.md R154). -/
  triacMinDelay : Word
  /-- TRIAC_EXTEND, the §4.2 short additional delay (42_triac.md R156). -/
  triacExtend : Word
  /-- DEB_FALL (41_zero_crossing.md R121). -/
  debFall : Word
  /-- DEB_RISE (41_zero_crossing.md R123). -/
  debRise : Word
  /-- DEBOUNCE_LEN (43_debounce.md R183). -/
  debounceLen : BitVec 3
deriving DecidableEq, Repr

/-- DEB_FALL = 1000 ticks (source value, 00_scope.md R6). -/
def debFall : Word := 1000

/-- DEB_RISE = 4000 ticks (source value, 00_scope.md R6). -/
def debRise : Word := 4000

/-- DEBOUNCE_LEN = 5 periodic ticks (source value, 00_scope.md R6). -/
def debounceLen : BitVec 3 := 5

/-- TRIAC_MIN_DELAY: "OPEN, 16-bit unsigned" (00_scope.md R6). Log entry 6. -/
opaque triacMinDelay : Word

/-- TRIAC_EXTEND less one. The spec leaves TRIAC_EXTEND open but for "TRIAC_EXTEND >= 1"
(00_scope.md R7), so what is left free is one of the 65535 values above 0. Log entry 6. -/
opaque triacExtendLessOne : Fin 65535

/-- TRIAC_EXTEND: "OPEN, 16-bit unsigned, at least 1" (00_scope.md R6, R7). -/
def triacExtend : Word := BitVec.ofNat 16 (triacExtendLessOne.val + 1)

/-- The parameters of this block. -/
def params : Params where
  triacMinDelay := triacMinDelay
  triacExtend := triacExtend
  debFall := debFall
  debRise := debRise
  debounceLen := debounceLen

/-- The reference parameters of 95_test_vectors.md, "the spec's own choice, for vectors only"
(00_scope.md R6). Only tests use them. -/
def reference : Params where
  triacMinDelay := 500
  triacExtend := 300
  debFall := debFall
  debRise := debRise
  debounceLen := debounceLen

/-- The constraints of 00_scope.md R7 for a deployment whose smallest HALFPER is `hpMin`. The second
one is no rule of the block: a configuration that breaks it "is still modelled by the rules". -/
abbrev Params.MeetsR7 (p : Params) (hpMin : Nat) : Prop :=
  1 ≤ p.triacExtend.toNat ∧ p.triacMinDelay.toNat + p.triacExtend.toNat < hpMin

/-- F_TICK, in ticks a second: OPEN, "No rule depends on it" (00_scope.md R6). Log entry 7. -/
opaque fTick : Nat

/-- ZCTB_BASE, the base of the register space in the host's address map: OPEN (20_memory.md R67).
Log entry 7. -/
opaque zctbBase : Nat

end Sys2Proof.Config
end

