-- ==== Sys2Proof/Syntax.lean ====
section
/-! DEFINITION. The instructions of ZCTB: one constructor for each mnemonic of opcode_table.json. -/

namespace Sys2Proof

/-- The operations that can be applied to the block (30_encoding.md R80, R87) and the internal actions
a TICK is made of (R89). `a0` is ADDR[0] of a RD or WR, which the block ignores (20_memory.md R63) and
the operation word nevertheless holds. -/
inductive Instr where
  /-- TICK: one timer tick with the sampled levels PIN_N[2:0] and ZC_IN (40_tick.md R100). -/
  | tick (pin : BitVec 3) (zc : Bool)
  /-- RD_CTRL (44_host_bus.md R212). -/
  | rdCtrl (a0 : Bool)
  /-- RD_STATUS (44_host_bus.md R214). -/
  | rdStatus (a0 : Bool)
  /-- RD_TCNT (44_host_bus.md R216). -/
  | rdTcnt (a0 : Bool)
  /-- RD_HALFPER (44_host_bus.md R218). -/
  | rdHalfper (a0 : Bool)
  /-- RD_ZCT (44_host_bus.md R220). -/
  | rdZct (a0 : Bool)
  /-- RD_TDELAY (44_host_bus.md R222). -/
  | rdTdelay (a0 : Bool)
  /-- RD_TCMP (44_host_bus.md R224). -/
  | rdTcmp (a0 : Bool)
  /-- RD_PEAK (44_host_bus.md R226). -/
  | rdPeak (a0 : Bool)
  /-- RD_FALLT (44_host_bus.md R228). -/
  | rdFallt (a0 : Bool)
  /-- RD_RISET (44_host_bus.md R230). -/
  | rdRiset (a0 : Bool)
  /-- RD_ZCCCR (44_host_bus.md R232). -/
  | rdZcccr (a0 : Bool)
  /-- RD_DBMASK (44_host_bus.md R234). -/
  | rdDbmask (a0 : Bool)
  /-- RD_DBSTATE (44_host_bus.md R236). -/
  | rdDbstate (a0 : Bool)
  /-- RD_PINS (44_host_bus.md R238). -/
  | rdPins (a0 : Bool)
  /-- RD_RSVD, a read at a reserved byte offset (44_host_bus.md R240). -/
  | rdRsvd (addr : Addr)
  /-- WR_CTRL (44_host_bus.md R213). -/
  | wrCtrl (a0 : Bool) (wdata : Word)
  /-- WR_STATUS (44_host_bus.md R215). -/
  | wrStatus (a0 : Bool) (wdata : Word)
  /-- WR_TCNT (44_host_bus.md R217). -/
  | wrTcnt (a0 : Bool) (wdata : Word)
  /-- WR_HALFPER (44_host_bus.md R219). -/
  | wrHalfper (a0 : Bool) (wdata : Word)
  /-- WR_ZCT (44_host_bus.md R221). -/
  | wrZct (a0 : Bool) (wdata : Word)
  /-- WR_TDELAY (44_host_bus.md R223). -/
  | wrTdelay (a0 : Bool) (wdata : Word)
  /-- WR_TCMP (44_host_bus.md R225). -/
  | wrTcmp (a0 : Bool) (wdata : Word)
  /-- WR_PEAK (44_host_bus.md R227). -/
  | wrPeak (a0 : Bool) (wdata : Word)
  /-- WR_FALLT (44_host_bus.md R229). -/
  | wrFallt (a0 : Bool) (wdata : Word)
  /-- WR_RISET (44_host_bus.md R231). -/
  | wrRiset (a0 : Bool) (wdata : Word)
  /-- WR_ZCCCR (44_host_bus.md R233). -/
  | wrZcccr (a0 : Bool) (wdata : Word)
  /-- WR_DBMASK (44_host_bus.md R235). -/
  | wrDbmask (a0 : Bool) (wdata : Word)
  /-- WR_DBSTATE (44_host_bus.md R237). -/
  | wrDbstate (a0 : Bool) (wdata : Word)
  /-- WR_PINS (44_host_bus.md R239). -/
  | wrPins (a0 : Bool) (wdata : Word)
  /-- WR_RSVD, a write at a reserved byte offset (44_host_bus.md R241). -/
  | wrRsvd (addr : Addr) (wdata : Word)
  /-- RESET (70_reset_and_hazards.md R280). -/
  | reset
  /-- EV_GOFF, gate pulse ends (40_tick.md R102). -/
  | evGoff
  /-- EV_FALL, falling edge captured (41_zero_crossing.md R121). -/
  | evFall
  /-- EV_FDEB, falling debounce expires (41_zero_crossing.md R122). -/
  | evFdeb
  /-- EV_RISE, rising edge captured (41_zero_crossing.md R123). -/
  | evRise
  /-- EV_PTICK, rising debounce expires, periodic tick (41_zero_crossing.md R124). -/
  | evPtick
  /-- EV_FIRST, first peak recorded (41_zero_crossing.md R128). -/
  | evFirst
  /-- EV_MEASURE, half-period computed (41_zero_crossing.md R129). -/
  | evMeasure
  /-- EV_RESYNC, ZCT replaced (41_zero_crossing.md R133). -/
  | evResync
  /-- EV_ARM, scheduler armed (41_zero_crossing.md R134). -/
  | evArm
  /-- EV_FIRE, compare match, gate set (42_triac.md R153). -/
  | evFire
  /-- EV_NORMAL, normal action (42_triac.md R155). -/
  | evNormal
  /-- EV_RETRY, retry action (42_triac.md R156). -/
  | evRetry
  /-- EV_DBSTEP, debounce step (43_debounce.md R183). -/
  | evDbstep
  /-- EV_COMMIT, verify succeeds (43_debounce.md R186). -/
  | evCommit
  /-- EV_ABORT, verify fails (43_debounce.md R187). -/
  | evAbort
  /-- EV_DETECT, input change detected in IDLE (43_debounce.md R188). -/
  | evDetect
deriving DecidableEq, Repr

/-- An internal action of TICK, a row of format `event` (30_encoding.md R89). -/
def Instr.isEvent : Instr → Bool
  | .evGoff => true
  | .evFall => true
  | .evFdeb => true
  | .evRise => true
  | .evPtick => true
  | .evFirst => true
  | .evMeasure => true
  | .evResync => true
  | .evArm => true
  | .evFire => true
  | .evNormal => true
  | .evRetry => true
  | .evDbstep => true
  | .evCommit => true
  | .evAbort => true
  | .evDetect => true
  | .tick _ _ => false
  | .rdCtrl _ => false
  | .rdStatus _ => false
  | .rdTcnt _ => false
  | .rdHalfper _ => false
  | .rdZct _ => false
  | .rdTdelay _ => false
  | .rdTcmp _ => false
  | .rdPeak _ => false
  | .rdFallt _ => false
  | .rdRiset _ => false
  | .rdZcccr _ => false
  | .rdDbmask _ => false
  | .rdDbstate _ => false
  | .rdPins _ => false
  | .rdRsvd _ => false
  | .wrCtrl _ _ => false
  | .wrStatus _ _ => false
  | .wrTcnt _ _ => false
  | .wrHalfper _ _ => false
  | .wrZct _ _ => false
  | .wrTdelay _ _ => false
  | .wrTcmp _ _ => false
  | .wrPeak _ _ => false
  | .wrFallt _ _ => false
  | .wrRiset _ _ => false
  | .wrZcccr _ _ => false
  | .wrDbmask _ _ => false
  | .wrDbstate _ _ => false
  | .wrPins _ _ => false
  | .wrRsvd _ _ => false
  | .reset => false

end Sys2Proof
end

