-- ==== Sys2Proof/WellFormed.lean ====
section
/-! DEFINITION. Which instructions are well formed: the two constructors that carry a whole byte
offset carry a reserved one (30_encoding.md R87; 10_state.md R45). Every other field may hold every
value of its width. -/

namespace Sys2Proof

/-- The first reserved byte offset: "Offsets 0x1C to 0xFF are reserved" (20_memory.md R67). -/
def firstReserved : Addr := 0x1C

/-- The well-formedness check, one arm a constructor. -/
def Instr.wf : Instr → Bool
  | .rdRsvd addr => firstReserved ≤ addr
  | .wrRsvd addr _ => firstReserved ≤ addr
  | .tick _ _ => true
  | .rdCtrl _ => true
  | .rdStatus _ => true
  | .rdTcnt _ => true
  | .rdHalfper _ => true
  | .rdZct _ => true
  | .rdTdelay _ => true
  | .rdTcmp _ => true
  | .rdPeak _ => true
  | .rdFallt _ => true
  | .rdRiset _ => true
  | .rdZcccr _ => true
  | .rdDbmask _ => true
  | .rdDbstate _ => true
  | .rdPins _ => true
  | .wrCtrl _ _ => true
  | .wrStatus _ _ => true
  | .wrTcnt _ _ => true
  | .wrHalfper _ _ => true
  | .wrZct _ _ => true
  | .wrTdelay _ _ => true
  | .wrTcmp _ _ => true
  | .wrPeak _ _ => true
  | .wrFallt _ _ => true
  | .wrRiset _ _ => true
  | .wrZcccr _ _ => true
  | .wrDbmask _ _ => true
  | .wrDbstate _ _ => true
  | .wrPins _ _ => true
  | .reset => true
  | .evGoff => true
  | .evFall => true
  | .evFdeb => true
  | .evRise => true
  | .evPtick => true
  | .evFirst => true
  | .evMeasure => true
  | .evResync => true
  | .evArm => true
  | .evFire => true
  | .evNormal => true
  | .evRetry => true
  | .evDbstep => true
  | .evCommit => true
  | .evAbort => true
  | .evDetect => true

/-- An instruction some encoding stands for. -/
abbrev WellFormed (i : Instr) : Prop := i.wf = true

end Sys2Proof
end

