-- ==== Sys2Proof/Decode.lean ====
section
/-! DEFINITION. The decoder of operation words and of event codes, total and rejecting by name, and
after it the encoder, both written from 30_encoding.md R80 to R89. -/

namespace Sys2Proof

/-- Why a code stands for no instruction. -/
inductive DecodeError where
  /-- A reserved bit of an operation word is 1: `raise Refuse(ReservedBitsSet)` (30_encoding.md R88). -/
  | reservedBitsSet
  /-- An event code outside 0x01 to 0x10, which names no action (30_encoding.md R89). -/
  | unknownEvent
deriving DecidableEq, Repr

/-- The operation field, bits 31:30 (30_encoding.md R80). -/
def opField (w : OpWord) : BitVec 2 := w.extractLsb' 30 2

/-- PIN[2:0], bits 3:1 of a TICK (30_encoding.md R82). -/
def pinField (w : OpWord) : BitVec 3 := w.extractLsb' 1 3

/-- ZC, bit 0 of a TICK (30_encoding.md R82). -/
def zcField (w : OpWord) : Bool := w.getLsbD 0

/-- ADDR[7:0], bits 23:16 of a RD or WR (30_encoding.md R83, R84). -/
def addrField (w : OpWord) : Addr := w.extractLsb' 16 8

/-- WDATA[15:0], bits 15:0 of a WR (30_encoding.md R84). -/
def wdataField (w : OpWord) : Word := w.extractLsb' 0 16

/-- All reserved bits of the word's format are 0 (30_encoding.md R82 to R85). -/
def reservedClear (w : OpWord) : Bool :=
  match (opField w).toNat with
  | 0 => w.extractLsb' 4 26 == 0
  | 1 => w.extractLsb' 24 6 == 0 && w.extractLsb' 0 16 == 0
  | 2 => w.extractLsb' 24 6 == 0
  | _ => w.extractLsb' 0 30 == 0

/-- The register index ADDR[7:1] (30_encoding.md R86). -/
def regIndex (addr : Addr) : Nat := (addr.extractLsb' 1 7).toNat

/-- The RD column of the opcode map (30_encoding.md R87). -/
def decodeRd (addr : Addr) : Instr :=
  match regIndex addr with
  | 0 => .rdCtrl (addr.getLsbD 0)
  | 1 => .rdStatus (addr.getLsbD 0)
  | 2 => .rdTcnt (addr.getLsbD 0)
  | 3 => .rdHalfper (addr.getLsbD 0)
  | 4 => .rdZct (addr.getLsbD 0)
  | 5 => .rdTdelay (addr.getLsbD 0)
  | 6 => .rdTcmp (addr.getLsbD 0)
  | 7 => .rdPeak (addr.getLsbD 0)
  | 8 => .rdFallt (addr.getLsbD 0)
  | 9 => .rdRiset (addr.getLsbD 0)
  | 10 => .rdZcccr (addr.getLsbD 0)
  | 11 => .rdDbmask (addr.getLsbD 0)
  | 12 => .rdDbstate (addr.getLsbD 0)
  | 13 => .rdPins (addr.getLsbD 0)
  | _ => .rdRsvd addr

/-- The WR column of the opcode map (30_encoding.md R87). -/
def decodeWr (addr : Addr) (wdata : Word) : Instr :=
  match regIndex addr with
  | 0 => .wrCtrl (addr.getLsbD 0) wdata
  | 1 => .wrStatus (addr.getLsbD 0) wdata
  | 2 => .wrTcnt (addr.getLsbD 0) wdata
  | 3 => .wrHalfper (addr.getLsbD 0) wdata
  | 4 => .wrZct (addr.getLsbD 0) wdata
  | 5 => .wrTdelay (addr.getLsbD 0) wdata
  | 6 => .wrTcmp (addr.getLsbD 0) wdata
  | 7 => .wrPeak (addr.getLsbD 0) wdata
  | 8 => .wrFallt (addr.getLsbD 0) wdata
  | 9 => .wrRiset (addr.getLsbD 0) wdata
  | 10 => .wrZcccr (addr.getLsbD 0) wdata
  | 11 => .wrDbmask (addr.getLsbD 0) wdata
  | 12 => .wrDbstate (addr.getLsbD 0) wdata
  | 13 => .wrPins (addr.getLsbD 0) wdata
  | _ => .wrRsvd addr wdata

/-- The decoder of operation words (30_encoding.md R80 to R88). It "ignores the `event` rows" (R89). -/
def decodeWord (w : OpWord) : Except DecodeError Instr :=
  if reservedClear w then
    match (opField w).toNat with
    | 0 => .ok (.tick (pinField w) (zcField w))
    | 1 => .ok (decodeRd (addrField w))
    | 2 => .ok (decodeWr (addrField w) (wdataField w))
    | _ => .ok .reset
  else .error .reservedBitsSet

/-- The decoder of event codes (30_encoding.md R89). -/
def decodeEvent (c : EventCode) : Except DecodeError Instr :=
  match c.toNat with
  | 0x01 => .ok .evGoff
  | 0x02 => .ok .evFall
  | 0x03 => .ok .evFdeb
  | 0x04 => .ok .evRise
  | 0x05 => .ok .evPtick
  | 0x06 => .ok .evFirst
  | 0x07 => .ok .evMeasure
  | 0x08 => .ok .evResync
  | 0x09 => .ok .evArm
  | 0x0A => .ok .evFire
  | 0x0B => .ok .evNormal
  | 0x0C => .ok .evRetry
  | 0x0D => .ok .evDbstep
  | 0x0E => .ok .evCommit
  | 0x0F => .ok .evAbort
  | 0x10 => .ok .evDetect
  | _ => .error .unknownEvent

/-- The decoder of both kinds of code. -/
def decode : Code → Except DecodeError Instr
  | .op w => decodeWord w
  | .event c => decodeEvent c

/-- The instruction the decoder reads from a row's bits. The table gives its `event` rows 8 bits and its
operation words 32. Eight bits are an event code; any other width is an operation word whose bits above
`nbits` are 0. Log entry 4. -/
def decodeTableWord (nbits w : Nat) : Option Instr :=
  if w < 2 ^ nbits ∧ nbits ≤ 32 then
    match decode (if nbits = 8 then .event (BitVec.ofNat 8 w) else .op (BitVec.ofNat 32 w)) with
    | .ok i => some i
    | .error _ => none
  else none

/-- The TICK word `{00, 26'b0, PIN, ZC}` (30_encoding.md R82, R90). -/
def encodeTick (pin : BitVec 3) (zc : Bool) : OpWord :=
  0#2 ++ 0#26 ++ pin ++ BitVec.ofBool zc

/-- The RD word `{01, 6'b0, ADDR, 16'b0}` (30_encoding.md R83, R90). -/
def encodeRd (addr : Addr) : OpWord := 1#2 ++ 0#6 ++ addr ++ 0#16

/-- The WR word `{10, 6'b0, ADDR, WDATA}` (30_encoding.md R84, R90). -/
def encodeWr (addr : Addr) (wdata : Word) : OpWord := 2#2 ++ 0#6 ++ addr ++ wdata

/-- ADDR for register index `index` with ADDR[0] = `a0` (30_encoding.md R86). -/
def regAddr (index : BitVec 7) (a0 : Bool) : Addr := index ++ BitVec.ofBool a0

/-- The encoder: the operation word or event code of an instruction, from the tables of
30_encoding.md R82 to R89. -/
def encode : Instr → Code
  | .tick pin zc => .op (encodeTick pin zc)
  | .rdCtrl a0 => .op (encodeRd (regAddr 0 a0))
  | .rdStatus a0 => .op (encodeRd (regAddr 1 a0))
  | .rdTcnt a0 => .op (encodeRd (regAddr 2 a0))
  | .rdHalfper a0 => .op (encodeRd (regAddr 3 a0))
  | .rdZct a0 => .op (encodeRd (regAddr 4 a0))
  | .rdTdelay a0 => .op (encodeRd (regAddr 5 a0))
  | .rdTcmp a0 => .op (encodeRd (regAddr 6 a0))
  | .rdPeak a0 => .op (encodeRd (regAddr 7 a0))
  | .rdFallt a0 => .op (encodeRd (regAddr 8 a0))
  | .rdRiset a0 => .op (encodeRd (regAddr 9 a0))
  | .rdZcccr a0 => .op (encodeRd (regAddr 10 a0))
  | .rdDbmask a0 => .op (encodeRd (regAddr 11 a0))
  | .rdDbstate a0 => .op (encodeRd (regAddr 12 a0))
  | .rdPins a0 => .op (encodeRd (regAddr 13 a0))
  | .rdRsvd addr => .op (encodeRd addr)
  | .wrCtrl a0 wdata => .op (encodeWr (regAddr 0 a0) wdata)
  | .wrStatus a0 wdata => .op (encodeWr (regAddr 1 a0) wdata)
  | .wrTcnt a0 wdata => .op (encodeWr (regAddr 2 a0) wdata)
  | .wrHalfper a0 wdata => .op (encodeWr (regAddr 3 a0) wdata)
  | .wrZct a0 wdata => .op (encodeWr (regAddr 4 a0) wdata)
  | .wrTdelay a0 wdata => .op (encodeWr (regAddr 5 a0) wdata)
  | .wrTcmp a0 wdata => .op (encodeWr (regAddr 6 a0) wdata)
  | .wrPeak a0 wdata => .op (encodeWr (regAddr 7 a0) wdata)
  | .wrFallt a0 wdata => .op (encodeWr (regAddr 8 a0) wdata)
  | .wrRiset a0 wdata => .op (encodeWr (regAddr 9 a0) wdata)
  | .wrZcccr a0 wdata => .op (encodeWr (regAddr 10 a0) wdata)
  | .wrDbmask a0 wdata => .op (encodeWr (regAddr 11 a0) wdata)
  | .wrDbstate a0 wdata => .op (encodeWr (regAddr 12 a0) wdata)
  | .wrPins a0 wdata => .op (encodeWr (regAddr 13 a0) wdata)
  | .wrRsvd addr wdata => .op (encodeWr addr wdata)
  | .reset => .op 0xC0000000
  | .evGoff => .event 0x01
  | .evFall => .event 0x02
  | .evFdeb => .event 0x03
  | .evRise => .event 0x04
  | .evPtick => .event 0x05
  | .evFirst => .event 0x06
  | .evMeasure => .event 0x07
  | .evResync => .event 0x08
  | .evArm => .event 0x09
  | .evFire => .event 0x0A
  | .evNormal => .event 0x0B
  | .evRetry => .event 0x0C
  | .evDbstep => .event 0x0D
  | .evCommit => .event 0x0E
  | .evAbort => .event 0x0F
  | .evDetect => .event 0x10

end Sys2Proof
end

