-- ==== Sys2Proof/Machine/State.lean ====
section
/-! DEFINITION. The state of ZCTB: the elements of 10_state.md R49 in `Block`, and beside them the
ports a run needs held and the operations still to be applied. -/

namespace Sys2Proof.Machine

/-- ZC_PHASE, the sequencer of the zero-crossing channel (10_state.md R23). "All four values are
legal." -/
inductive ZcPhase where
  /-- 0, ARM_FALL: waiting for a falling edge of ZC_IN. -/
  | armFall
  /-- 1, DEB_FALL: waiting DEB_FALL ticks, with edges ignored. -/
  | debFall
  /-- 2, ARM_RISE: waiting for a rising edge. -/
  | armRise
  /-- 3, DEB_RISE: waiting DEB_RISE ticks, with edges ignored. -/
  | debRise
deriving DecidableEq, Repr

/-- DB_MODE, the sequencer of the debounce filter (10_state.md R35). The fourth bit pattern is
"Unreachable. No rule writes it." (log entry 8). -/
inductive DbMode where
  /-- 0, IDLE: the committed pattern stands and change detection is armed. -/
  | idle
  /-- 1, COUNTING: the counter is running. -/
  | counting
  /-- 2, VERIFY: the tentative value waits for the re-read at the next tick. -/
  | verify
deriving DecidableEq, Repr

/-- The state elements of the block (10_state.md R49), each under its own name. -/
structure Block where
  /-- TCNT, the free-running up-counter (R22). -/
  tcnt : Word
  /-- ZC_PHASE (R23). -/
  zcPhase : ZcPhase
  /-- ZC_PREV, the level of ZC_IN at the previous tick (R24). -/
  zcPrev : Bool
  /-- FALL_T, the capture time of the last accepted falling edge (R25). -/
  fallT : Word
  /-- RISE_T, the capture time of the last accepted rising edge (R25). -/
  riseT : Word
  /-- ZC_CCR, the compare target of the running edge debounce (R26). -/
  zcCcr : Word
  /-- PEAK, the peak time of the last periodic tick (R27). -/
  peak : Word
  /-- PKV: PEAK holds a computed value (R27). -/
  pkv : Bool
  /-- HALFPER, the measured half-period (R28). -/
  halfper : Word
  /-- LOCK: HALFPER holds a computed value (R28). -/
  lock : Bool
  /-- ZCT, the crossing that begins the half-cycle of the next pending fire (R29). -/
  zct : Word
  /-- TDELAY, the trigger delay; 0 is "driver disabled" (R30). -/
  tdelay : Word
  /-- TCMP, the TRIAC compare register (R31). -/
  tcmp : Word
  /-- ARMED: the TRIAC scheduler is enabled (R32). -/
  armed : Bool
  /-- DELAYOFF, the delay-off flag of a retry (R33). -/
  delayOff : Bool
  /-- GATE, the gate drive (R34). -/
  gate : Bool
  /-- GOFF, a pending end of pulse (R34). -/
  goff : Bool
  /-- DB_MODE (R35). -/
  dbMode : DbMode
  /-- DB_CNT, the debounce counter (R36). -/
  dbCnt : BitVec 3
  /-- DB_LAST, the observed value (R37). -/
  dbLast : BitVec 3
  /-- DB_COMM, the committed pattern (R38). -/
  dbComm : BitVec 3
  /-- DBV: a commit has happened since reset (R38). -/
  dbv : Bool
  /-- DBCHG: the last commit changed DB_COMM (R38). -/
  dbchg : Bool
  /-- DB_MASK, the input enable mask (R39). -/
  dbMask : BitVec 3
  /-- PINS, PIN_N[2:0] as sampled at the last tick (R40). -/
  pins : BitVec 3
  /-- CTRL[2:0]: bit 0 TICKIE, bit 1 DBCIE, bit 2 ZUPDIE (R41). -/
  ctrl : BitVec 3
  /-- STATUS.TICK, sticky (R42). -/
  stTick : Bool
  /-- STATUS.DBC, sticky (R42). -/
  stDbc : Bool
  /-- STATUS.ZUPD, sticky (R42). -/
  stZupd : Bool
deriving DecidableEq, Repr

/-- Every element at its reset value (10_state.md R49). -/
def Block.reset : Block where
  tcnt := 0x0000
  zcPhase := .armFall
  zcPrev := false
  fallT := 0x0000
  riseT := 0x0000
  zcCcr := 0x0000
  peak := 0x0000
  pkv := false
  halfper := 0x0000
  lock := false
  zct := 0x0000
  tdelay := 0x0000
  tcmp := 0x0000
  armed := false
  delayOff := false
  gate := false
  goff := false
  dbMode := .counting
  dbCnt := 5
  dbLast := 0b111
  dbComm := 0b111
  dbv := false
  dbchg := false
  dbMask := 0b111
  pins := 0b111
  ctrl := 0b000
  stTick := false
  stDbc := false
  stZupd := false

/-- One input the environment applies to the block, at a point between two operations. -/
inductive Input where
  /-- An operation word, applied as a TICK, RD, WR or RESET (30_encoding.md R80). A bare event code
  never comes from the hardware's surroundings (R89); log entry 4. -/
  | code (c : Code)
  /-- The RST line takes this level (10_state.md R21; 70_reset_and_hazards.md R281). -/
  | rst (level : Bool)
deriving DecidableEq, Repr

/-- The machine: the block, its RST and RDATA ports, and the operations still to be applied. -/
structure State where
  /-- The state elements of 10_state.md R49. -/
  blk : Block
  /-- The level of the RST port (10_state.md R21; 70_reset_and_hazards.md R281). Log entry 3. -/
  rst : Bool
  /-- RDATA: what the operation just performed returned, which is a value for a RD and nothing for any
  other operation (10_state.md R21; 44_host_bus.md R210). Log entry 2. -/
  rdata : Option Word
  /-- The operations the environment still applies, oldest first: the rest of the total order of
  20_memory.md R69. The model's own field; log entry 1. -/
  pending : List Input
deriving DecidableEq, Repr

/-- The machine right after reset: every element at the value of 10_state.md R49, RST low, no read
answered, nothing pending. -/
def State.reset : State where
  blk := Block.reset
  rst := false
  rdata := none
  pending := []

/-- The faults of the machine: none. "ZCTB raises no exception. Every well-formed operation completes
and has the effect its rule gives." (60_exceptions.md R250) -/
inductive Fault where
deriving DecidableEq, Repr

/-- Why the machine gives an input no meaning. -/
inductive Refusal where
  /-- Raised by `exec` for an instruction without a meaning; no arm raises it. Safe. -/
  | notModelled (mnemonic : String)
  /-- Raised by the step for an operation word with a reserved bit set: the spec's own
  `raise Refuse(ReservedBitsSet)` (30_encoding.md R88). Safe: "Refusal errs toward unprovable". -/
  | reservedBitsSet
  /-- Raised by the step for an event code that names no action (30_encoding.md R89; log entry 4).
  Safe: no such code exists. -/
  | unknownEvent
deriving DecidableEq, Repr

end Sys2Proof.Machine
end

