-- ==== Sys2Proof/Machine/Operands.lean ====
section
/-! DEFINITION. The operand forms of the rules: field values, sign and zero extension, edges, matches,
the masked sample, and the values inside a periodic tick. -/

namespace Sys2Proof.Machine

/-- `zext_16` of a 3-bit field (00_scope.md R9). -/
def zext16 (v : BitVec 3) : Word := v.setWidth 16

/-- `sext_16`: a 16-bit value as an integer in [-32768, 32767] (00_scope.md R9). -/
def sext16 (v : Word) : Int := v.toInt

/-- `v >> 1`, the floor of half an unsigned value (00_scope.md R9). -/
def half (v : Word) : Word := v >>> 1

/-- The two bits of ZC_PHASE (10_state.md R23). -/
def ZcPhase.bits : ZcPhase → BitVec 2
  | .armFall => 0
  | .debFall => 1
  | .armRise => 2
  | .debRise => 3

/-- The two bits of DB_MODE (10_state.md R35). -/
def DbMode.bits : DbMode → BitVec 2
  | .idle => 0
  | .counting => 1
  | .verify => 2

/-- fall = (ZC_PREV == 1 and ZC == 0) (41_zero_crossing.md R120). -/
def Block.fall (b : Block) (zc : Bool) : Bool := b.zcPrev && !zc

/-- rise = (ZC_PREV == 0 and ZC == 1) (41_zero_crossing.md R120). -/
def Block.rise (b : Block) (zc : Bool) : Bool := !b.zcPrev && zc

/-- T == ZC_CCR: the running edge debounce expires (40_tick.md R101; 41_zero_crossing.md R122, R124). -/
def Block.zcExpired (b : Block) : Bool := b.tcnt == b.zcCcr

/-- ARMED == 1 and T == TCMP: a compare match (42_triac.md R152, R153). -/
def Block.fires (b : Block) : Bool := b.armed && b.tcnt == b.tcmp

/-- TDELAY > TRIAC_MIN_DELAY or DELAYOFF == 1, unsigned and strict (42_triac.md R153, R154). -/
def Block.takesNormal (p : Config.Params) (b : Block) : Bool :=
  b.delayOff || decide (p.triacMinDelay < b.tdelay)

/-- v = PINS & DB_MASK, the masked sample (43_debounce.md R182). -/
def Block.masked (b : Block) : BitVec 3 := b.pins &&& b.dbMask

/-- W, the pulse width, modulo 2^16 (41_zero_crossing.md R128, R129). -/
def Block.pulseWidth (b : Block) : Word := b.riseT - b.fallT

/-- peak = FALL_T + (W >> 1), the midpoint of the pulse (41_zero_crossing.md R128, R129). -/
def Block.newPeak (b : Block) : Word := b.fallT + half b.pulseWidth

/-- Q, the quarter period, after Measure (41_zero_crossing.md R130). -/
def Block.quarter (b : Block) : Word := half b.halfper

/-- Zmeas, the newly measured crossing, after Measure, when PEAK holds peak (41_zero_crossing.md
R130). -/
def Block.zmeas (b : Block) : Word := b.peak + b.quarter

/-- C, the candidate ZCT, after Measure (41_zero_crossing.md R131). -/
def Block.candidate (b : Block) : Word := b.zmeas + b.halfper

/-- D0 = sext_16(C - ZCT) (41_zero_crossing.md R132). -/
def Block.discrepancy (b : Block) : Int := sext16 (b.candidate - b.zct)

/-- small = (|D0| <= Q) or (|D0 - zext_16(HALFPER)| <= Q), as integers (41_zero_crossing.md R132). -/
def Block.small (b : Block) : Bool :=
  decide (b.discrepancy.natAbs ≤ b.quarter.toNat) ||
    decide ((b.discrepancy - (b.halfper.toNat : Int)).natAbs ≤ b.quarter.toNat)

/-- ARMED == 0 or large: the periodic tick resynchronises (41_zero_crossing.md R133). -/
def Block.resyncs (b : Block) : Bool := !b.armed || !b.small

end Sys2Proof.Machine
end

