-- ==== Sys2Proof/Machine/Flags.lean ====
section
/-! DEFINITION. The status register, its write-1-to-clear bits, the interrupt enables and the three
outputs, none of which has state of its own. -/

namespace Sys2Proof.Machine

/-- CTRL.TICKIE (10_state.md R41). -/
def Block.tickIe (b : Block) : Bool := b.ctrl.getLsbD 0

/-- CTRL.DBCIE (10_state.md R41). -/
def Block.dbcIe (b : Block) : Bool := b.ctrl.getLsbD 1

/-- CTRL.ZUPDIE (10_state.md R41). -/
def Block.zupdIe (b : Block) : Bool := b.ctrl.getLsbD 2

/-- IRQ (10_state.md R44). -/
def Block.irq (b : Block) : Bool :=
  b.stTick && b.tickIe || b.stDbc && b.dbcIe || b.stZupd && b.zupdIe

/-- GATE_OUT = GATE (10_state.md R43). -/
def Block.gateOut (b : Block) : Bool := b.gate

/-- IND_OUT = ARMED (10_state.md R43). -/
def Block.indOut (b : Block) : Bool := b.armed

/-- The STATUS layout, bit 15 first (10_state.md R46; 44_host_bus.md R214). -/
def Block.statusWord (b : Block) : Word :=
  BitVec.ofBool b.goff ++ b.dbMode.bits ++ b.zcPhase.bits ++ BitVec.ofBool b.zcPrev ++
    BitVec.ofBool b.gate ++ BitVec.ofBool b.delayOff ++ BitVec.ofBool b.armed ++
    BitVec.ofBool b.lock ++ BitVec.ofBool b.pkv ++ BitVec.ofBool b.dbv ++
    BitVec.ofBool b.dbchg ++ BitVec.ofBool b.stZupd ++ BitVec.ofBool b.stDbc ++
    BitVec.ofBool b.stTick

/-- The DBSTATE layout `{5'b0, DB_CNT, 1'b0, DB_LAST, 1'b0, DB_COMM}` (10_state.md R47;
44_host_bus.md R236). -/
def Block.dbstateWord (b : Block) : Word :=
  0#5 ++ b.dbCnt ++ 0#1 ++ b.dbLast ++ 0#1 ++ b.dbComm

/-- Write-1-to-clear of STATUS bits 2:0 (44_host_bus.md R215). -/
def Block.clearEvents (wdata : Word) (b : Block) : Block :=
  { b with
    stTick := b.stTick && !wdata.getLsbD 0
    stDbc := b.stDbc && !wdata.getLsbD 1
    stZupd := b.stZupd && !wdata.getLsbD 2 }

end Sys2Proof.Machine
end

