-- ==== Sys2Proof/Machine/Ops.lean ====
section
/-! DEFINITION. The shared operations on the machine: a host access, a tick, an internal action, a
reset, the RST line and the taking of the next input. The block raises no exception, so there is
none to take and none to return from (60_exceptions.md R250, R255, R256). -/

namespace Sys2Proof.Machine

/-- The outcome of an operation. -/
abbrev Result := Host.Outcome State Fault Refusal

/-- The elements a RD sees: while RST is held high "RDs return reset values"
(70_reset_and_hazards.md R281). -/
def State.visible (s : State) : Block := if s.rst then Block.reset else s.blk

/-- A host read: RDATA takes the register's value and no element changes (44_host_bus.md R210). -/
def hostRead (view : Block → Word) (s : State) : Result :=
  .next { s with rdata := some (view s.visible) }

/-- A host write, done at once on the elements; while RST is held high "WRs are ignored"
(44_host_bus.md R211; 70_reset_and_hazards.md R281). -/
def hostWrite (effect : Block → Block) (s : State) : Result :=
  .next { s with blk := if s.rst then s.blk else effect s.blk, rdata := none }

/-- A tick; while RST is held high "the block applies RESET in place of every TICK"
(70_reset_and_hazards.md R281). -/
def clockTick (effect : Block → Block) (s : State) : Result :=
  .next { s with blk := if s.rst then Block.reset else effect s.blk, rdata := none }

/-- An internal action taken by itself. While RST is held high no TICK is applied, so no action of one
is either (70_reset_and_hazards.md R281). Log entries 3 and 4. -/
def internalAction (effect : Block → Block) (s : State) : Result :=
  .next { s with blk := if s.rst then s.blk else effect s.blk, rdata := none }

/-- RESET: every element takes its reset value in one step (70_reset_and_hazards.md R280). -/
def blockReset (s : State) : Result :=
  .next { s with blk := Block.reset, rdata := none }

/-- The RST line takes a level: "A rising edge of RST, or power-up, applies one RESET"
(70_reset_and_hazards.md R281). -/
def setRst (level : Bool) (s : State) : State :=
  { s with
    blk := if level && !s.rst then Block.reset else s.blk
    rst := level
    rdata := none }

/-- The next input and the machine with it taken off the list; none where nothing is pending. -/
def takeInput (s : State) : Option (Input × State) :=
  match s.pending with
  | [] => none
  | x :: rest => some (x, { s with pending := rest })

/-- No operation is applied: "all state is held" (60_exceptions.md R265). Log entry 1. -/
def hold (s : State) : State := s

/-- The refusal of a code that stands for no instruction (30_encoding.md R88, R89). -/
def refusalOf : DecodeError → Refusal
  | .reservedBitsSet => .reservedBitsSet
  | .unknownEvent => .unknownEvent

end Sys2Proof.Machine
end

