-- ==== Sys2Proof/Machine/HostRead.lean ====
section
/-! DEFINITION. The host's RD operations, one meaning a register (44_host_bus.md R210 to R240).
ADDR[0], the argument `_a0`, is ignored (20_memory.md R63). -/

namespace Sys2Proof.Machine

/-- The meaning of RD_CTRL (44_host_bus.md R212). -/
def execRdCtrl (_a0 : Bool) (s : State) : Result := hostRead (fun b => zext16 b.ctrl) s

/-- The meaning of RD_STATUS (44_host_bus.md R214). -/
def execRdStatus (_a0 : Bool) (s : State) : Result := hostRead Block.statusWord s

/-- The meaning of RD_TCNT (44_host_bus.md R216). -/
def execRdTcnt (_a0 : Bool) (s : State) : Result := hostRead Block.tcnt s

/-- The meaning of RD_HALFPER (44_host_bus.md R218). -/
def execRdHalfper (_a0 : Bool) (s : State) : Result := hostRead Block.halfper s

/-- The meaning of RD_ZCT (44_host_bus.md R220). -/
def execRdZct (_a0 : Bool) (s : State) : Result := hostRead Block.zct s

/-- The meaning of RD_TDELAY (44_host_bus.md R222). -/
def execRdTdelay (_a0 : Bool) (s : State) : Result := hostRead Block.tdelay s

/-- The meaning of RD_TCMP (44_host_bus.md R224). -/
def execRdTcmp (_a0 : Bool) (s : State) : Result := hostRead Block.tcmp s

/-- The meaning of RD_PEAK (44_host_bus.md R226). -/
def execRdPeak (_a0 : Bool) (s : State) : Result := hostRead Block.peak s

/-- The meaning of RD_FALLT (44_host_bus.md R228). -/
def execRdFallt (_a0 : Bool) (s : State) : Result := hostRead Block.fallT s

/-- The meaning of RD_RISET (44_host_bus.md R230). -/
def execRdRiset (_a0 : Bool) (s : State) : Result := hostRead Block.riseT s

/-- The meaning of RD_ZCCCR (44_host_bus.md R232). -/
def execRdZcccr (_a0 : Bool) (s : State) : Result := hostRead Block.zcCcr s

/-- The meaning of RD_DBMASK (44_host_bus.md R234). -/
def execRdDbmask (_a0 : Bool) (s : State) : Result := hostRead (fun b => zext16 b.dbMask) s

/-- The meaning of RD_DBSTATE (44_host_bus.md R236). -/
def execRdDbstate (_a0 : Bool) (s : State) : Result := hostRead Block.dbstateWord s

/-- The meaning of RD_PINS (44_host_bus.md R238). -/
def execRdPins (_a0 : Bool) (s : State) : Result := hostRead (fun b => zext16 b.pins) s

/-- The meaning of RD_RSVD: "Returns 0x0000" (44_host_bus.md R240). -/
def execRdRsvd (_addr : Addr) (s : State) : Result := hostRead (fun _ => 0x0000) s

end Sys2Proof.Machine
end

