-- ==== Sys2Proof/Machine/HostWrite.lean ====
section
/-! DEFINITION. The host's WR operations, one meaning a register (44_host_bus.md R211 to R241).
ADDR[0], the argument `_a0`, is ignored (20_memory.md R63). -/

namespace Sys2Proof.Machine

/-- CTRL[2:0] <- WDATA[2:0] (44_host_bus.md R213). -/
def setCtrl (wdata : Word) (b : Block) : Block := { b with ctrl := wdata.extractLsb' 0 3 }

/-- The TRIAC driver is disabled: ARMED, DELAYOFF, GATE and GOFF <- 0 (44_host_bus.md R223). -/
def disableDriver (b : Block) : Block :=
  { b with armed := false, delayOff := false, gate := false, goff := false }

/-- TDELAY <- WDATA, and a write of 0 disables the driver (44_host_bus.md R223). -/
def setTdelay (wdata : Word) (b : Block) : Block :=
  let t := { b with tdelay := wdata }
  if wdata = 0 then disableDriver t else t

/-- DB_MASK <- WDATA[2:0], and the filter's values are re-masked (44_host_bus.md R235). -/
def setDbmask (wdata : Word) (b : Block) : Block :=
  let m : BitVec 3 := wdata.extractLsb' 0 3
  { b with dbMask := m, dbComm := b.dbComm &&& m, dbLast := b.dbLast &&& m }

/-- An ignored write: `skip` (44_host_bus.md R211). -/
def ignoreWrite (b : Block) : Block := b

/-- The meaning of WR_CTRL (44_host_bus.md R213). -/
def execWrCtrl (_a0 : Bool) (wdata : Word) (s : State) : Result :=
  hostWrite (setCtrl wdata) s

/-- The meaning of WR_STATUS (44_host_bus.md R215). -/
def execWrStatus (_a0 : Bool) (wdata : Word) (s : State) : Result :=
  hostWrite (Block.clearEvents wdata) s

/-- The meaning of WR_TCNT (44_host_bus.md R217). -/
def execWrTcnt (_a0 : Bool) (_wdata : Word) (s : State) : Result :=
  hostWrite ignoreWrite s

/-- The meaning of WR_HALFPER (44_host_bus.md R219). -/
def execWrHalfper (_a0 : Bool) (_wdata : Word) (s : State) : Result :=
  hostWrite ignoreWrite s

/-- The meaning of WR_ZCT (44_host_bus.md R221). -/
def execWrZct (_a0 : Bool) (_wdata : Word) (s : State) : Result :=
  hostWrite ignoreWrite s

/-- The meaning of WR_TDELAY (44_host_bus.md R223). -/
def execWrTdelay (_a0 : Bool) (wdata : Word) (s : State) : Result :=
  hostWrite (setTdelay wdata) s

/-- The meaning of WR_TCMP (44_host_bus.md R225). -/
def execWrTcmp (_a0 : Bool) (_wdata : Word) (s : State) : Result :=
  hostWrite ignoreWrite s

/-- The meaning of WR_PEAK (44_host_bus.md R227). -/
def execWrPeak (_a0 : Bool) (_wdata : Word) (s : State) : Result :=
  hostWrite ignoreWrite s

/-- The meaning of WR_FALLT (44_host_bus.md R229). -/
def execWrFallt (_a0 : Bool) (_wdata : Word) (s : State) : Result :=
  hostWrite ignoreWrite s

/-- The meaning of WR_RISET (44_host_bus.md R231). -/
def execWrRiset (_a0 : Bool) (_wdata : Word) (s : State) : Result :=
  hostWrite ignoreWrite s

/-- The meaning of WR_ZCCCR (44_host_bus.md R233). -/
def execWrZcccr (_a0 : Bool) (_wdata : Word) (s : State) : Result :=
  hostWrite ignoreWrite s

/-- The meaning of WR_DBMASK (44_host_bus.md R235). -/
def execWrDbmask (_a0 : Bool) (wdata : Word) (s : State) : Result :=
  hostWrite (setDbmask wdata) s

/-- The meaning of WR_DBSTATE (44_host_bus.md R237). -/
def execWrDbstate (_a0 : Bool) (_wdata : Word) (s : State) : Result :=
  hostWrite ignoreWrite s

/-- The meaning of WR_PINS (44_host_bus.md R239). -/
def execWrPins (_a0 : Bool) (_wdata : Word) (s : State) : Result :=
  hostWrite ignoreWrite s

/-- The meaning of WR_RSVD: "Ignored" (44_host_bus.md R241). -/
def execWrRsvd (_addr : Addr) (_wdata : Word) (s : State) : Result := hostWrite ignoreWrite s

end Sys2Proof.Machine
end

