-- ==== Sys2Proof/Machine/Reset.lean ====
section
/-! DEFINITION. RESET (70_reset_and_hazards.md R280). -/

namespace Sys2Proof.Machine

/-- The meaning of RESET. -/
def execReset (s : State) : Result := blockReset s

end Sys2Proof.Machine
end

