-- ==== Sys2Proof/Machine/Triac.lean ====
section
/-! DEFINITION. The TRIAC trigger pulse generator with retry scheduling (42_triac.md), and the end of a
gate pulse (40_tick.md R102). -/

namespace Sys2Proof.Machine

/-- EV_GOFF: if GOFF == 1, GATE <- 0 and GOFF <- 0 (40_tick.md R102). -/
def endPulse (b : Block) : Block :=
  if b.goff then { b with gate := false, goff := false } else b

/-- EV_NORMAL, NormalAction (42_triac.md R155). TCMP uses the new ZCT. -/
def normalAction (b : Block) : Block :=
  { b with
    delayOff := false
    zct := b.zct + b.halfper
    tcmp := b.zct + b.halfper + b.tdelay
    goff := true }

/-- EV_RETRY, RetryAction (42_triac.md R156). -/
def retryAction (p : Config.Params) (b : Block) : Block :=
  { b with tcmp := b.tcmp + p.triacExtend, delayOff := true }

/-- EV_FIRE, TriacChannel(T) with T = TCNT (42_triac.md R151, R153). -/
def triacChannel (p : Config.Params) (b : Block) : Block :=
  if b.fires then
    let on := { b with gate := true }
    if on.takesNormal p then normalAction on else retryAction p on
  else b

/-- The meaning of EV_GOFF. -/
def execEvGoff (s : State) : Result := internalAction endPulse s

/-- The meaning of EV_FIRE. -/
def execEvFire (s : State) : Result := internalAction (triacChannel Config.params) s

/-- The meaning of EV_NORMAL. -/
def execEvNormal (s : State) : Result := internalAction normalAction s

/-- The meaning of EV_RETRY. -/
def execEvRetry (s : State) : Result := internalAction (retryAction Config.params) s

end Sys2Proof.Machine
end

