-- ==== Sys2Proof/Machine/Debounce.lean ====
section
/-! DEFINITION. The debounce filter (43_debounce.md). `mode0` is DB_MODE at the start of the tick
(40_tick.md R100). -/

namespace Sys2Proof.Machine

/-- The counter starts again from the top on the observed value `v` in COUNTING: what an abort and a
change detection both do (43_debounce.md R187, R188). -/
def restartCount (p : Config.Params) (v : BitVec 3) (b : Block) : Block :=
  { b with dbMode := .counting, dbCnt := p.debounceLen, dbLast := v }

/-- EV_DBSTEP, DebounceStep (43_debounce.md R183). -/
def debounceStep (p : Config.Params) (b : Block) : Block :=
  if b.masked ≠ b.dbLast then
    { b with dbLast := b.masked, dbCnt := p.debounceLen }
  else
    { b with
      dbCnt := b.dbCnt - 1
      dbMode := if b.dbCnt - 1 = 0 then .verify else b.dbMode }

/-- EV_COMMIT, the verify succeeds (43_debounce.md R186). -/
def commit (mode0 : DbMode) (b : Block) : Block :=
  if mode0 = .verify ∧ b.masked = b.dbLast then
    { b with
      dbchg := b.dbComm != b.dbLast
      dbComm := b.dbLast
      dbv := true
      dbMode := .idle
      stDbc := true }
  else b

/-- EV_ABORT, the verify fails (43_debounce.md R187). -/
def abort (p : Config.Params) (mode0 : DbMode) (b : Block) : Block :=
  if mode0 = .verify ∧ b.masked ≠ b.dbLast then restartCount p b.masked b else b

/-- EV_DETECT, change detection in IDLE (43_debounce.md R188). -/
def detect (p : Config.Params) (mode0 : DbMode) (b : Block) : Block :=
  if mode0 = .idle ∧ b.masked ≠ b.dbComm then restartCount p b.masked b else b

/-- The last sub-step of a tick, DebounceTail(mode0) (40_tick.md R106). -/
def debounceTail (p : Config.Params) (mode0 : DbMode) (b : Block) : Block :=
  match mode0 with
  | .verify => if b.masked = b.dbLast then commit mode0 b else abort p mode0 b
  | .idle => detect p mode0 b
  | .counting => b

/-- The meaning of EV_DBSTEP. -/
def execEvDbstep (s : State) : Result := internalAction (debounceStep Config.params) s

/-- The meaning of EV_COMMIT. -/
def execEvCommit (s : State) : Result := internalAction (fun b => commit b.dbMode b) s

/-- The meaning of EV_ABORT. -/
def execEvAbort (s : State) : Result :=
  internalAction (fun b => abort Config.params b.dbMode b) s

/-- The meaning of EV_DETECT. -/
def execEvDetect (s : State) : Result :=
  internalAction (fun b => detect Config.params b.dbMode b) s

end Sys2Proof.Machine
end

