-- ==== Sys2Proof/Machine/ZeroCross.lean ====
section
/-! DEFINITION. The zero-crossing detector and half-period timer (41_zero_crossing.md). T is TCNT, which
the tick has advanced already (40_tick.md R101). -/

namespace Sys2Proof.Machine

/-- EV_FALL, phase 1 (41_zero_crossing.md R121). -/
def captureFall (p : Config.Params) (zc : Bool) (b : Block) : Block :=
  if b.zcPhase = .armFall ∧ b.fall zc then
    { b with fallT := b.tcnt, zcCcr := b.tcnt + p.debFall, zcPhase := .debFall }
  else b

/-- EV_FDEB, phase 2 (41_zero_crossing.md R122). -/
def expireFall (b : Block) : Block :=
  if b.zcPhase = .debFall ∧ b.zcExpired then { b with zcPhase := .armRise } else b

/-- EV_RISE, phase 3 (41_zero_crossing.md R123). -/
def captureRise (p : Config.Params) (zc : Bool) (b : Block) : Block :=
  if b.zcPhase = .armRise ∧ b.rise zc then
    { b with riseT := b.tcnt, zcCcr := b.tcnt + p.debRise, zcPhase := .debRise }
  else b

/-- EV_FIRST, FirstPeak (41_zero_crossing.md R128). -/
def firstPeak (b : Block) : Block := { b with peak := b.newPeak, pkv := true }

/-- EV_MEASURE, Measure (41_zero_crossing.md R129). -/
def measurePeriod (b : Block) : Block :=
  { b with halfper := half (b.newPeak - b.peak), peak := b.newPeak, lock := true }

/-- EV_ARM, Arm (41_zero_crossing.md R134). -/
def arm (b : Block) : Block :=
  if b.tdelay ≠ 0 then
    { b with
      tcmp := b.zct + b.tdelay
      armed := true
      delayOff := false
      goff := b.gate || b.goff }
  else b

/-- EV_RESYNC, Resync(T), after Measure (41_zero_crossing.md R133). -/
def resync (b : Block) : Block :=
  if b.resyncs then arm { b with zct := b.candidate, stZupd := true } else b

/-- The computation half of PeriodicTick: the first peak, or the measurement and the resynchronisation
policy (41_zero_crossing.md R127). -/
def periodicCompute (b : Block) : Block :=
  if b.pkv then resync (measurePeriod b) else firstPeak b

/-- PeriodicTick(T, mode0) (41_zero_crossing.md R127). -/
def periodicTick (p : Config.Params) (mode0 : DbMode) (b : Block) : Block :=
  let c := periodicCompute b
  let d := if mode0 = .counting then debounceStep p c else c
  { d with stTick := true }

/-- EV_PTICK, phase 4 (41_zero_crossing.md R124). -/
def expireRise (p : Config.Params) (mode0 : DbMode) (b : Block) : Block :=
  if b.zcPhase = .debRise ∧ b.zcExpired then
    periodicTick p mode0 { b with zcPhase := .armFall }
  else b

/-- The one action the phase at the start of the tick allows (41_zero_crossing.md R125; 40_tick.md
R108). -/
def zcAction (p : Config.Params) (zc : Bool) (mode0 : DbMode) (b : Block) : Block :=
  match b.zcPhase with
  | .armFall => captureFall p zc b
  | .debFall => expireFall b
  | .armRise => captureRise p zc b
  | .debRise => expireRise p mode0 b

/-- The zero-crossing sub-step, ZcChannel(T, ZC, mode0): the action, and last ZC_PREV <- ZC (40_tick.md
R105; 41_zero_crossing.md R126). -/
def zcChannel (p : Config.Params) (zc : Bool) (mode0 : DbMode) (b : Block) : Block :=
  { zcAction p zc mode0 b with zcPrev := zc }

/-- The meaning of EV_FALL. Its operand "fall == 1" says that the sample is 0. -/
def execEvFall (s : State) : Result := internalAction (captureFall Config.params false) s

/-- The meaning of EV_FDEB. -/
def execEvFdeb (s : State) : Result := internalAction expireFall s

/-- The meaning of EV_RISE. Its operand "rise == 1" says that the sample is 1. -/
def execEvRise (s : State) : Result := internalAction (captureRise Config.params true) s

/-- The meaning of EV_PTICK. DB_MODE is still mode0 when a tick reaches it. -/
def execEvPtick (s : State) : Result :=
  internalAction (fun b => expireRise Config.params b.dbMode b) s

/-- The meaning of EV_FIRST. -/
def execEvFirst (s : State) : Result := internalAction firstPeak s

/-- The meaning of EV_MEASURE. -/
def execEvMeasure (s : State) : Result := internalAction measurePeriod s

/-- The meaning of EV_RESYNC. -/
def execEvResync (s : State) : Result := internalAction resync s

/-- The meaning of EV_ARM. -/
def execEvArm (s : State) : Result := internalAction arm s

end Sys2Proof.Machine
end

