-- ==== Sys2Proof/Machine/Tick.lean ====
section
/-! DEFINITION. The TICK operation and the order of actions within a tick (40_tick.md). -/

namespace Sys2Proof.Machine

/-- Sub-step 1: TCNT <- TCNT + 1 modulo 2^16 (40_tick.md R101). -/
def advance (b : Block) : Block := { b with tcnt := b.tcnt + 1 }

/-- Sub-step 3: PINS <- PIN, unmasked (40_tick.md R103). -/
def samplePins (pin : BitVec 3) (b : Block) : Block := { b with pins := pin }

/-- What the TRIAC channel sees: the block after sub-steps 1 to 3 (40_tick.md R104). -/
def beforeTriac (pin : BitVec 3) (b : Block) : Block :=
  samplePins pin (endPulse (advance b))

/-- What the zero-crossing channel sees: the block after sub-step 4 (40_tick.md R105). -/
def beforeZc (p : Config.Params) (pin : BitVec 3) (b : Block) : Block :=
  triacChannel p (beforeTriac pin b)

/-- TICK(ZC, PIN), its six sub-steps in their fixed order (40_tick.md R100, R107). -/
def tick (p : Config.Params) (pin : BitVec 3) (zc : Bool) (b : Block) : Block :=
  debounceTail p b.dbMode (zcChannel p zc b.dbMode (beforeZc p pin b))

/-- The meaning of TICK. -/
def execTick (pin : BitVec 3) (zc : Bool) (s : State) : Result :=
  clockTick (tick Config.params pin zc) s

end Sys2Proof.Machine
end

