-- ==== Sys2Proof/Machine/Dispatch.lean ====
section
/-! DEFINITION. The dispatch of an instruction to its meaning, one arm a constructor. -/

namespace Sys2Proof.Machine

def exec (i : Instr) (s : State) : Host.Outcome State Fault Refusal :=
  match i with
  | .tick pin zc => Sys2Proof.Machine.execTick pin zc s
  | .rdCtrl a0 => Sys2Proof.Machine.execRdCtrl a0 s
  | .rdStatus a0 => Sys2Proof.Machine.execRdStatus a0 s
  | .rdTcnt a0 => Sys2Proof.Machine.execRdTcnt a0 s
  | .rdHalfper a0 => Sys2Proof.Machine.execRdHalfper a0 s
  | .rdZct a0 => Sys2Proof.Machine.execRdZct a0 s
  | .rdTdelay a0 => Sys2Proof.Machine.execRdTdelay a0 s
  | .rdTcmp a0 => Sys2Proof.Machine.execRdTcmp a0 s
  | .rdPeak a0 => Sys2Proof.Machine.execRdPeak a0 s
  | .rdFallt a0 => Sys2Proof.Machine.execRdFallt a0 s
  | .rdRiset a0 => Sys2Proof.Machine.execRdRiset a0 s
  | .rdZcccr a0 => Sys2Proof.Machine.execRdZcccr a0 s
  | .rdDbmask a0 => Sys2Proof.Machine.execRdDbmask a0 s
  | .rdDbstate a0 => Sys2Proof.Machine.execRdDbstate a0 s
  | .rdPins a0 => Sys2Proof.Machine.execRdPins a0 s
  | .rdRsvd addr => Sys2Proof.Machine.execRdRsvd addr s
  | .wrCtrl a0 wdata => Sys2Proof.Machine.execWrCtrl a0 wdata s
  | .wrStatus a0 wdata => Sys2Proof.Machine.execWrStatus a0 wdata s
  | .wrTcnt a0 wdata => Sys2Proof.Machine.execWrTcnt a0 wdata s
  | .wrHalfper a0 wdata => Sys2Proof.Machine.execWrHalfper a0 wdata s
  | .wrZct a0 wdata => Sys2Proof.Machine.execWrZct a0 wdata s
  | .wrTdelay a0 wdata => Sys2Proof.Machine.execWrTdelay a0 wdata s
  | .wrTcmp a0 wdata => Sys2Proof.Machine.execWrTcmp a0 wdata s
  | .wrPeak a0 wdata => Sys2Proof.Machine.execWrPeak a0 wdata s
  | .wrFallt a0 wdata => Sys2Proof.Machine.execWrFallt a0 wdata s
  | .wrRiset a0 wdata => Sys2Proof.Machine.execWrRiset a0 wdata s
  | .wrZcccr a0 wdata => Sys2Proof.Machine.execWrZcccr a0 wdata s
  | .wrDbmask a0 wdata => Sys2Proof.Machine.execWrDbmask a0 wdata s
  | .wrDbstate a0 wdata => Sys2Proof.Machine.execWrDbstate a0 wdata s
  | .wrPins a0 wdata => Sys2Proof.Machine.execWrPins a0 wdata s
  | .wrRsvd addr wdata => Sys2Proof.Machine.execWrRsvd addr wdata s
  | .reset => Sys2Proof.Machine.execReset s
  | .evGoff => Sys2Proof.Machine.execEvGoff s
  | .evFall => Sys2Proof.Machine.execEvFall s
  | .evFdeb => Sys2Proof.Machine.execEvFdeb s
  | .evRise => Sys2Proof.Machine.execEvRise s
  | .evPtick => Sys2Proof.Machine.execEvPtick s
  | .evFirst => Sys2Proof.Machine.execEvFirst s
  | .evMeasure => Sys2Proof.Machine.execEvMeasure s
  | .evResync => Sys2Proof.Machine.execEvResync s
  | .evArm => Sys2Proof.Machine.execEvArm s
  | .evFire => Sys2Proof.Machine.execEvFire s
  | .evNormal => Sys2Proof.Machine.execEvNormal s
  | .evRetry => Sys2Proof.Machine.execEvRetry s
  | .evDbstep => Sys2Proof.Machine.execEvDbstep s
  | .evCommit => Sys2Proof.Machine.execEvCommit s
  | .evAbort => Sys2Proof.Machine.execEvAbort s
  | .evDetect => Sys2Proof.Machine.execEvDetect s

end Sys2Proof.Machine
end

