-- ==== Sys2Proof/Machine/Run.lean ====
section
/-! DEFINITION. Applying the next input, and applying a sequence of operations. -/

namespace Sys2Proof.Machine

/-- A code is decoded and its instruction runs; a code that stands for none is refused and the block
does not step (30_encoding.md R88). -/
def runCode (c : Code) (s : State) : Host.Outcome State Fault Refusal :=
  match decode c with
  | .ok i => exec i s
  | .error e => .refused (refusalOf e)

/-- One input is applied. -/
def runInput (x : Input) (s : State) : Host.Outcome State Fault Refusal :=
  match x with
  | .code c => runCode c s
  | .rst level => .next (setRst level s)

/-- The instructions of a list, one after another, "one at a time in that order" (20_memory.md R69). -/
def execAll : List Instr → State → Host.Outcome State Fault Refusal
  | [], s => .next s
  | i :: is, s =>
    match exec i s with
    | .next t => execAll is t
    | .fault e => .fault e
    | .refused r => .refused r

/-- Ticks with the levels of each, as instructions. -/
def ticks (levels : List (BitVec 3 × Bool)) : List Instr :=
  levels.map fun x => .tick x.1 x.2

/-- A program placed before the operations that are pending already: its codes are applied next. -/
def State.withProgram (s : State) (is : List Instr) : State :=
  { s with pending := is.map (fun i => .code (encode i)) ++ s.pending }

/-- The input that the host's table word stands for (log entry 4). -/
def tableInput (nbits w : Nat) : Input :=
  .code (if nbits = 8 then .event (BitVec.ofNat 8 w) else .op (BitVec.ofNat 32 w))

end Sys2Proof.Machine
end

