-- ==== Sys2Proof/Machine/Step.lean ====
section
/-! DEFINITION. One step of the machine: the next pending input is applied. -/

namespace Sys2Proof.Machine

/-- One step: the oldest pending input is taken and applied; with nothing pending the machine holds. -/
def step (s : State) : Host.Outcome State Fault Refusal :=
  match takeInput s with
  | none => .next (hold s)
  | some (x, t) => runInput x t

/-- The machine with a table word as the next input (log entry 1). -/
def State.withFetchWord (s : State) (nbits w : Nat) : State :=
  { s with pending := tableInput nbits w :: s.pending }

end Sys2Proof.Machine
end

