-- ==== Sys2Proof/Machine/Assembly.lean ====
section
/-! DEFINITION. The assembler syntax and the pseudo-operations of the spec's test programs
(30_encoding.md R90, R91). -/

namespace Sys2Proof.Machine

/-- The names of rule R87's offset column, by register index (30_encoding.md R87, R90). -/
def regNames : List String :=
  ["CTRL", "STATUS", "TCNT", "HALFPER", "ZCT", "TDELAY", "TCMP", "PEAK", "FALLT", "RISET", "ZCCCR",
    "DBMASK", "DBSTATE", "PINS"]

/-- A number in decimal (30_encoding.md R90: "Numbers are decimal unless written with 0x or 0b"). -/
def decimal (n : Nat) : String := toString n

/-- REG of a byte offset: a register's name at its even offset, and a numeric offset at every other
one (30_encoding.md R90). -/
def regText (addr : Addr) : String :=
  if addr.getLsbD 0 then decimal addr.toNat
  else (regNames[regIndex addr]?).getD (decimal addr.toNat)

/-- A binary digit. -/
def bitText (b : Bool) : String := if b then "1" else "0"

/-- The text form of an operation word (30_encoding.md R90); none for an ill-formed word. -/
def wordText (w : OpWord) : Option String :=
  match decodeWord w with
  | .error _ => none
  | .ok _ =>
    match (opField w).toNat with
    | 0 => some ("TICK zc=" ++ bitText (zcField w) ++ ", pins=0b" ++ bitText ((pinField w).getLsbD 2)
        ++ bitText ((pinField w).getLsbD 1) ++ bitText ((pinField w).getLsbD 0))
    | 1 => some ("RD " ++ regText (addrField w))
    | 2 => some ("WR " ++ regText (addrField w) ++ ", " ++ decimal (wdataField w).toNat)
    | _ => some "RESET"

/-- The pseudo-operations (30_encoding.md R91). -/
inductive Pseudo where
  /-- IDLE n, zc=z, pins=p. -/
  | idle (n : Nat) (zc : Bool) (pins : BitVec 3)
  /-- DISABLE. -/
  | disable
  /-- CLRSTAT m. -/
  | clrstat (m : Word)
  /-- CYCLE fall=f, width=w, period=P, pins=p. -/
  | cycle (fall width period : Nat) (pins : BitVec 3)
deriving DecidableEq, Repr

/-- The level of ZC_IN at tick k of a CYCLE: "zc = 0 when f <= k < f + w and zc = 1 otherwise"
(30_encoding.md R91). -/
def cycleLevel (fall width k : Nat) : Bool := !(decide (fall ≤ k) && decide (k < fall + width))

/-- The expansion of a pseudo-operation (30_encoding.md R91). -/
def expand : Pseudo → List Instr
  | .idle n zc pins => List.replicate n (.tick pins zc)
  | .disable => [.wrTdelay false 0]
  | .clrstat m => [.wrStatus false m]
  | .cycle fall width period pins =>
    (List.range period).map fun j => .tick pins (cycleLevel fall width (j + 1))

end Sys2Proof.Machine
end

