-- ==== Sys2Proof/Machine/Trace.lean ====
section
/-! DEFINITION. The trace of a tick: the internal actions it takes, in their order (30_encoding.md R89;
40_tick.md R107), and what each of them does itself. No register holds it; it is an observation of the
tick. -/

namespace Sys2Proof.Machine

/-- The end of a gate pulse (40_tick.md R102). -/
def goffEvents (b : Block) : List Instr := if b.goff then [.evGoff] else []

/-- A fire and its one action (42_triac.md R153). -/
def triacEvents (p : Config.Params) (b : Block) : List Instr :=
  if b.fires then [.evFire, if b.takesNormal p then .evNormal else .evRetry] else []

/-- The computation of a periodic tick (41_zero_crossing.md R127, R133, R134). -/
def computeEvents (b : Block) : List Instr :=
  if b.pkv then
    .evMeasure ::
      if (measurePeriod b).resyncs then
        .evResync :: if b.tdelay ≠ 0 then [.evArm] else []
      else []
  else [.evFirst]

/-- The zero-crossing channel's action (41_zero_crossing.md R121 to R127). -/
def zcEvents (zc : Bool) (mode0 : DbMode) (b : Block) : List Instr :=
  match b.zcPhase with
  | .armFall => if b.fall zc then [.evFall] else []
  | .debFall => if b.zcExpired then [.evFdeb] else []
  | .armRise => if b.rise zc then [.evRise] else []
  | .debRise =>
    if b.zcExpired then
      .evPtick :: (computeEvents b ++ if mode0 = .counting then [.evDbstep] else [])
    else []

/-- The debounce tail's action (40_tick.md R106). -/
def tailEvents (mode0 : DbMode) (b : Block) : List Instr :=
  match mode0 with
  | .verify => if b.masked = b.dbLast then [.evCommit] else [.evAbort]
  | .idle => if b.masked ≠ b.dbComm then [.evDetect] else []
  | .counting => []

/-- The actions of one tick, in order (40_tick.md R107). -/
def tickEvents (p : Config.Params) (pin : BitVec 3) (zc : Bool) (b : Block) : List Instr :=
  goffEvents b ++ triacEvents p (beforeTriac pin b) ++
    zcEvents zc b.dbMode (beforeZc p pin b) ++
    tailEvents b.dbMode (zcChannel p zc b.dbMode (beforeZc p pin b))

/-- What an action writes itself, without the actions that its rule calls: those follow it in the trace
under names of their own. EV_FIRE calls EV_NORMAL or EV_RETRY (42_triac.md R153), EV_PTICK the
computation and the debounce step (41_zero_crossing.md R124, R127), EV_RESYNC calls EV_ARM (R133). Every
other action calls none, and its own part is all of it. An operation that is no action does nothing
here. DEDUCED (log entry 14). -/
def ownPart (p : Config.Params) (i : Instr) (b : Block) : Block :=
  match i with
  | .evGoff => endPulse b
  | .evFire => { b with gate := true }
  | .evNormal => normalAction b
  | .evRetry => retryAction p b
  | .evFall => captureFall p false b
  | .evFdeb => expireFall b
  | .evRise => captureRise p true b
  | .evPtick => { b with zcPhase := .armFall, stTick := true }
  | .evFirst => firstPeak b
  | .evMeasure => measurePeriod b
  | .evResync => { b with zct := b.candidate, stZupd := true }
  | .evArm => arm b
  | .evDbstep => debounceStep p b
  | .evCommit => commit b.dbMode b
  | .evAbort => abort p b.dbMode b
  | .evDetect => detect p b.dbMode b
  | .tick _ _ => b
  | .rdCtrl _ => b
  | .rdStatus _ => b
  | .rdTcnt _ => b
  | .rdHalfper _ => b
  | .rdZct _ => b
  | .rdTdelay _ => b
  | .rdTcmp _ => b
  | .rdPeak _ => b
  | .rdFallt _ => b
  | .rdRiset _ => b
  | .rdZcccr _ => b
  | .rdDbmask _ => b
  | .rdDbstate _ => b
  | .rdPins _ => b
  | .rdRsvd _ => b
  | .wrCtrl _ _ => b
  | .wrStatus _ _ => b
  | .wrTcnt _ _ => b
  | .wrHalfper _ _ => b
  | .wrZct _ _ => b
  | .wrTdelay _ _ => b
  | .wrTcmp _ _ => b
  | .wrPeak _ _ => b
  | .wrFallt _ _ => b
  | .wrRiset _ _ => b
  | .wrZcccr _ _ => b
  | .wrDbmask _ _ => b
  | .wrDbstate _ _ => b
  | .wrPins _ _ => b
  | .wrRsvd _ _ => b
  | .reset => b

/-- The own parts of a list of actions, one after another. -/
def runActions (p : Config.Params) (is : List Instr) (b : Block) : Block :=
  is.foldl (fun c i => ownPart p i c) b

/-- A TICK applied now is a periodic tick (41_zero_crossing.md R124; 43_debounce.md R181). -/
def Block.periodicDue (b : Block) : Bool := b.zcPhase == .debRise && b.tcnt + 1 == b.zcCcr

/-- The pins sampled at the periodic ticks of a run, oldest first (43_debounce.md R181, R182). -/
def periodicSamples : List Instr → State → List (BitVec 3)
  | [], _ => []
  | i :: is, s =>
    match exec i s with
    | .next t =>
      match i with
      | .tick pin _ => (if s.blk.periodicDue then [pin] else []) ++ periodicSamples is t
      | _ => periodicSamples is t
    | .fault _ => []
    | .refused _ => []

end Sys2Proof.Machine
end

