-- ==== Sys2Proof/Machine/RegMap.lean ====
section
/-! DEFINITION. The register map as one function of the byte offset (10_state.md R45; 20_memory.md R60
to R67), the byte lanes of a byte-addressed host bus, and the window in the host's address map. -/

namespace Sys2Proof.Machine

/-- What a RD at a byte offset returns (10_state.md R45). The register is the one at {ADDR[7:1], 0}
(20_memory.md R63); a reserved offset reads 0x0000 (10_state.md R48). -/
def readReg (addr : Addr) (b : Block) : Word :=
  match regIndex addr with
  | 0 => zext16 b.ctrl
  | 1 => b.statusWord
  | 2 => b.tcnt
  | 3 => b.halfper
  | 4 => b.zct
  | 5 => b.tdelay
  | 6 => b.tcmp
  | 7 => b.peak
  | 8 => b.fallT
  | 9 => b.riseT
  | 10 => b.zcCcr
  | 11 => zext16 b.dbMask
  | 12 => b.dbstateWord
  | 13 => zext16 b.pins
  | _ => 0x0000

/-- What a WR at a byte offset does (44_host_bus.md R211): four registers have writable or
write-1-to-clear bits, every other write is ignored. -/
def writeReg (addr : Addr) (wdata : Word) (b : Block) : Block :=
  match regIndex addr with
  | 0 => setCtrl wdata b
  | 1 => b.clearEvents wdata
  | 5 => setTdelay wdata b
  | 11 => setDbmask wdata b
  | _ => ignoreWrite b

/-- The byte a byte-addressed host bus sees at a byte address: bits 7:0 at the even address and bits
15:8 at the odd one (20_memory.md R64). -/
def byteLane (addr : Addr) (b : Block) : BitVec 8 :=
  (readReg addr b).extractLsb' (if addr.getLsbD 0 then 8 else 0) 8

/-- The byte offset that a host address reaches, where the window of 256 bytes at ZCTB_BASE holds it
(20_memory.md R60, R67). -/
def windowOffset (a : Nat) : Option Addr :=
  if Config.zctbBase ≤ a ∧ a < Config.zctbBase + 256 then
    some (BitVec.ofNat 8 (a - Config.zctbBase))
  else none

end Sys2Proof.Machine
end

