-- ==== Sys2Proof/Safety.lean ====
section
/-! DEFINITION. What holds of every state a run reaches, in the terms the claims use, and what a run
is. -/

namespace Sys2Proof.Machine

/-- The relations between the state elements that hold at every point between operations. -/
structure Block.Inv (b : Block) : Prop where
  /-- "whenever ARMED == 0, GATE == 0 and GOFF == 0" (42_triac.md R151). -/
  disarmedIsOff : b.armed = false → b.gate = false ∧ b.goff = false
  /-- An end of pulse is pending only during a pulse (42_triac.md R155; 41_zero_crossing.md R134). -/
  goffInPulse : b.goff = true → b.gate = true
  /-- DELAYOFF is set "only while the extended pulse lasts" (60_exceptions.md R266). -/
  delayOffInPulse : b.delayOff = true → b.gate = true ∧ b.goff = false
  /-- No arming before LOCK, nor with TDELAY == 0 (41_zero_crossing.md R134, R139). -/
  armedIsLocked : b.armed = true → b.lock = true ∧ b.tdelay ≠ 0
  /-- HALFPER is measured from a recorded peak (41_zero_crossing.md R139). -/
  lockHasPeak : b.lock = true → b.pkv = true
  /-- HALFPER, ZCT and TCMP keep their reset values until LOCK (10_state.md R28; 41_zero_crossing.md
  R139). -/
  unlockedIsReset : b.lock = false → b.halfper = 0 ∧ b.zct = 0 ∧ b.tcmp = 0
  /-- PEAK keeps its reset value until PKV (10_state.md R27). -/
  noPeakIsReset : b.pkv = false → b.peak = 0
  /-- HALFPER lies "in [0, 0x7FFF]" (10_state.md R28). -/
  halfperRange : b.halfper.toNat ≤ 0x7FFF
  /-- ZC_CCR is FALL_T + DEB_FALL in phase DEB_FALL (10_state.md R26). -/
  fallTarget : b.zcPhase = .debFall → b.zcCcr = b.fallT + 1000
  /-- ZC_CCR is RISE_T + DEB_RISE in phase DEB_RISE (10_state.md R26). -/
  riseTarget : b.zcPhase = .debRise → b.zcCcr = b.riseT + 4000
  /-- "In COUNTING, DB_CNT is always between 1 and 5" (43_debounce.md R183). -/
  countingRange : b.dbMode = .counting → 1 ≤ b.dbCnt.toNat ∧ b.dbCnt.toNat ≤ 5
  /-- DB_CNT is 0 in VERIFY and "stays 0 while IDLE" (43_debounce.md R183, R186). -/
  stoppedAtZero : b.dbMode ≠ .counting → b.dbCnt = 0
  /-- VERIFY is entered by a periodic tick and left by the next tick (43_debounce.md R185). -/
  verifyAfterPtick : b.dbMode = .verify → b.zcPhase = .armFall
  /-- "A masked-out input reads as 0 in every filter value" (10_state.md R39). -/
  commMasked : b.dbComm &&& b.dbMask = b.dbComm
  /-- "A masked-out input reads as 0 in every filter value" (10_state.md R39). -/
  lastMasked : b.dbLast &&& b.dbMask = b.dbLast
  /-- IDLE is entered by a commit only (43_debounce.md R186). -/
  idleIsCommitted : b.dbMode = .idle → b.dbv = true
  /-- DBCHG and STATUS.DBC are set by a commit only (43_debounce.md R186). -/
  commitEvents : b.dbchg = true ∨ b.stDbc = true → b.dbv = true
  /-- STATUS.TICK is set by a periodic tick, which leaves PKV at 1 (41_zero_crossing.md R127, R128). -/
  tickHasPeak : b.stTick = true → b.pkv = true
  /-- STATUS.ZUPD is set by a resynchronisation, which follows a measurement (41_zero_crossing.md
  R133). -/
  zupdIsLocked : b.stZupd = true → b.lock = true

/-- The zero-crossing channel's captures agree (10_state.md R23, R25, R26). -/
def Block.SameCapture (a b : Block) : Prop :=
  a.zcPhase = b.zcPhase ∧ a.fallT = b.fallT ∧ a.riseT = b.riseT ∧ a.zcCcr = b.zcCcr

/-- What a periodic tick computes for the zero-crossing channel agrees (10_state.md R27, R28, R42). -/
def Block.SameMeasurement (a b : Block) : Prop :=
  a.peak = b.peak ∧ a.pkv = b.pkv ∧ a.halfper = b.halfper ∧ a.lock = b.lock ∧
    a.stTick = b.stTick ∧ a.stZupd = b.stZupd

/-- The schedule of the TRIAC channel agrees (10_state.md R29, R31, R32, R33). -/
def Block.SameSchedule (a b : Block) : Prop :=
  a.zct = b.zct ∧ a.tcmp = b.tcmp ∧ a.armed = b.armed ∧ a.delayOff = b.delayOff

/-- What a commit makes visible agrees (10_state.md R38, R42). -/
def Block.SameCommit (a b : Block) : Prop :=
  a.dbComm = b.dbComm ∧ a.dbv = b.dbv ∧ a.dbchg = b.dbchg ∧ a.stDbc = b.stDbc

/-- The state of the debounce filter agrees (10_state.md R35 to R38, R42). -/
def Block.SameFilter (a b : Block) : Prop :=
  a.dbMode = b.dbMode ∧ a.dbCnt = b.dbCnt ∧ a.dbLast = b.dbLast ∧ a.SameCommit b

/-- The registers the host owns agree (10_state.md R30, R39, R41). -/
def Block.SameHost (a b : Block) : Prop :=
  a.tdelay = b.tdelay ∧ a.dbMask = b.dbMask ∧ a.ctrl = b.ctrl

/-- A TICK operation. -/
def isTick : Instr → Bool
  | .tick _ _ => true
  | _ => false

/-- A RD or WR operation: neither a TICK nor RESET, and no internal action (30_encoding.md R80). -/
def isHostAccess (i : Instr) : Bool := !isTick i && !i.isEvent && i != .reset

/-- The ticks of a list sample the level `z` of ZC_IN and no other: the mains signal does not toggle
(60_exceptions.md R264). -/
abbrev NoMains (z : Bool) (is : List Instr) : Prop :=
  ∀ pin zc, .tick pin zc ∈ is → zc = z

/-- The operations of a list are TICKs, RDs and WRs. -/
abbrev NoReset (is : List Instr) : Prop :=
  ∀ i ∈ is, i ≠ .reset ∧ i.isEvent = false

/-- A bare event code, which the hardware's surroundings never apply (30_encoding.md R89). -/
def Input.isBareEvent : Input → Bool
  | .code (.event _) => true
  | .code (.op _) => false
  | .rst _ => false

/-- The invariant of the machine: that of the block, "While RST is held high ... RDs return reset
values" (70_reset_and_hazards.md R281), and only hardware inputs are pending. -/
structure State.Inv (s : State) : Prop where
  blockInv : s.blk.Inv
  heldInReset : s.rst = true → s.blk = Block.reset
  hardwareInputs : ∀ x ∈ s.pending, x.isBareEvent = false

/-- The states that one step of hardware inputs after another leads to from `s`. -/
inductive Reaches (s : State) : State → Prop where
  | refl : Reaches s s
  | next {t u : State} (h : Reaches s t) (hstep : step t = .next u) : Reaches s u

/-- A safe run of the machine: no state that it reaches drives the gate while the scheduler is
disabled (42_triac.md R151), and no step of it is a fault (60_exceptions.md R250). -/
def SafeRun (s : State) : Prop :=
  ∀ t, Reaches s t →
    (t.blk.indOut = false → t.blk.gateOut = false) ∧ ∀ f, step t ≠ .fault f

end Sys2Proof.Machine
end

