-- ==== Sys2Proof/Certificates/Slice0/Obligations.lean ====
section
/-! DEFINITION. The statements for the provers. Each docstring names the rule of spec/ it formalises. -/

open Sys2Proof Sys2Proof.Machine

/-! ## Encoding and the step -/

/-- Decoding the code of a well-formed instruction gives it back, every operand at every value
(30_encoding.md R82 to R89). -/
def Obligations.DecodeOfEncode : Prop :=
  ∀ i : Instr, WellFormed i → decode (encode i) = .ok i

/-- Every code that stands for an instruction is the code of that instruction and of no other, and the
instruction is well formed: no bit is dropped. The encodings are those of 30_encoding.md R82 to R89. That
each word has an instruction of its own is the model's choice (log entry 10): ADDR[0] is kept as an
operand, where 20_memory.md R63 calls the odd offset an alias of the even one; what both mean is the
same. -/
def Obligations.EncodeOfDecode : Prop :=
  ∀ (c : Code) (i : Instr), decode c = .ok i → WellFormed i ∧ encode i = c

/-- An operation word is refused exactly when a reserved bit of its format is set; the formats are those
of 30_encoding.md R82 to R85, the refusal is R88. -/
def Obligations.ReservedBitsAreRefused : Prop :=
  ∀ (s : State) (w : OpWord) (rest : List Input), s.pending = .code (.op w) :: rest →
    let reservedZero : Prop :=
      (w.extractLsb' 30 2 = 0 → w.extractLsb' 4 26 = 0) ∧
      (w.extractLsb' 30 2 = 1 → w.extractLsb' 24 6 = 0 ∧ w.extractLsb' 0 16 = 0) ∧
      (w.extractLsb' 30 2 = 2 → w.extractLsb' 24 6 = 0) ∧
      (w.extractLsb' 30 2 = 3 → w.extractLsb' 0 30 = 0)
    (reservedZero → (∃ i, decodeWord w = .ok i) ∧ ∃ t, step s = .next t) ∧
    (¬ reservedZero → step s = .refused .reservedBitsSet)

/-- No operation word decodes to an internal action (30_encoding.md R89), and the codes 0x01 to 0x10 are
exactly those that name one. -/
def Obligations.WordsNeverDecodeToEvents : Prop :=
  (∀ (w : OpWord) (i : Instr), decodeWord w = .ok i → i.isEvent = false) ∧
  (∀ (c : EventCode), (∃ i, decodeEvent c = .ok i ∧ i.isEvent = true) ↔ 1 ≤ c.toNat ∧ c.toNat ≤ 0x10)

/-- The words E1 to E12 of 95_test_vectors.md section 2.1 decode as that table says. -/
def Obligations.SampleWordsDecode : Prop :=
  decodeWord 0x0000000F = .ok (.tick 0b111 true) ∧
  decodeWord 0x0000000A = .ok (.tick 0b101 false) ∧
  decodeWord 0x00000010 = .error .reservedBitsSet ∧
  decodeWord 0x40020000 = .ok (.rdStatus false) ∧
  decodeWord 0x40030000 = .ok (.rdStatus true) ∧
  decodeWord 0x40020001 = .error .reservedBitsSet ∧
  decodeWord 0x800A0BB8 = .ok (.wrTdelay false 3000) ∧
  decodeWord 0x810A0BB8 = .error .reservedBitsSet ∧
  decodeWord 0xC0000000 = .ok .reset ∧
  decodeWord 0xC0000001 = .error .reservedBitsSet ∧
  decodeWord 0x40800000 = .ok (.rdRsvd 0x80) ∧
  decodeWord 0x80FEFFFF = .ok (.wrRsvd 0xFE 0xFFFF)

/-- A step with a decodable code as its next input is `exec` of the decoded instruction on the machine
with that input taken off; the code of a well-formed instruction runs exactly that instruction; and
`withFetchWord` places its word as the next input. The operations are those of 30_encoding.md R80 in the
order of 20_memory.md R69. The list of pending inputs and `withFetchWord` are the model's own (log entry
1), and so are a bare event code and its 8 bits (log entry 4). -/
def Obligations.StepRunsTheDecodedInstruction : Prop :=
  (∀ (s : State) (c : Code) (rest : List Input) (i : Instr),
    s.pending = .code c :: rest → decode c = .ok i → step s = exec i { s with pending := rest }) ∧
  (∀ (s : State) (rest : List Input) (i : Instr), WellFormed i →
    s.pending = .code (encode i) :: rest → step s = exec i { s with pending := rest }) ∧
  (∀ (s : State) (nbits w : Nat) (i : Instr), decodeTableWord nbits w = some i →
    step (s.withFetchWord nbits w) = exec i s)

/-- With no operation applied, "all state is held" (60_exceptions.md R265). That the step then answers
the same state is the model's form of it (log entry 1). -/
def Obligations.StateIsHeldWithNothingPending : Prop :=
  ∀ s : State, s.pending = [] → step s = .next s

/-- Stepping through a program of codes is running its instructions one after another. That the
operations form one total order, each seeing every effect of those before it, is 20_memory.md R69; that
the order is a list from whose front a step takes, and that `withProgram` puts a program there, is the
model's choice (log entry 1), and so are the bare event codes among the programs (log entry 4). -/
def Obligations.ProgramRunIsExecAll : Prop :=
  ∀ (is : List Instr) (s : State), (∀ i ∈ is, WellFormed i) →
    Host.Core.run core is.length (s.withProgram is) = execAll is s

/-- "ZCTB raises no exception. Every well-formed operation completes" (60_exceptions.md R250): every
instruction, in every state, has a next state; it leaves the RST line and the pending inputs alone. -/
def Obligations.EveryInstructionCompletes : Prop :=
  ∀ (i : Instr) (s : State), ∃ t, exec i s = .next t ∧ t.rst = s.rst ∧ t.pending = s.pending

/-! ## Which operation may change what -/

/-- No RD and no WR changes the counter, a capture, a measurement, the schedule's ZCT and TCMP, the
filter's mode and counter, or the sampled pins; neither does it set an event bit, arm or start a pulse
(10_state.md R22 to R29, R31, R35, R36, R40; 20_memory.md R66). -/
def Obligations.HostAccessLeavesTheMeasurements : Prop :=
  ∀ (i : Instr) (s t : State), isHostAccess i = true → exec i s = .next t →
    t.blk.tcnt = s.blk.tcnt ∧ t.blk.zcPrev = s.blk.zcPrev ∧ t.blk.SameCapture s.blk ∧
    t.blk.peak = s.blk.peak ∧ t.blk.pkv = s.blk.pkv ∧ t.blk.halfper = s.blk.halfper ∧
    t.blk.lock = s.blk.lock ∧ t.blk.zct = s.blk.zct ∧ t.blk.tcmp = s.blk.tcmp ∧
    t.blk.dbMode = s.blk.dbMode ∧ t.blk.dbCnt = s.blk.dbCnt ∧ t.blk.dbv = s.blk.dbv ∧
    t.blk.dbchg = s.blk.dbchg ∧ t.blk.pins = s.blk.pins ∧
    (t.blk.stTick = true → s.blk.stTick = true) ∧ (t.blk.stDbc = true → s.blk.stDbc = true) ∧
    (t.blk.stZupd = true → s.blk.stZupd = true) ∧ (t.blk.armed = true → s.blk.armed = true) ∧
    (t.blk.gate = true → s.blk.gate = true)

/-- CTRL, TDELAY and DB_MASK are changed by nothing but a WR to that register and RESET, whatever
instruction runs (10_state.md R30, R39, R41). -/
def Obligations.OnlyTheHostWritesItsRegisters : Prop :=
  ∀ (i : Instr) (s t : State), s.rst = false → i ≠ .reset → exec i s = .next t →
    (t.blk.ctrl ≠ s.blk.ctrl → ∃ a0 d, i = .wrCtrl a0 d) ∧
    (t.blk.tdelay ≠ s.blk.tdelay → ∃ a0 d, i = .wrTdelay a0 d) ∧
    (t.blk.dbMask ≠ s.blk.dbMask → ∃ a0 d, i = .wrDbmask a0 d)

/-- "Only two things clear ARMED: RESET, and a WR of 0 to TDELAY" (42_triac.md R151); and only a TICK,
or the actions of one, sets it (10_state.md R32). -/
def Obligations.WhatClearsAndSetsArmed : Prop :=
  ∀ (i : Instr) (s t : State), s.rst = false → exec i s = .next t →
    (s.blk.armed = true → t.blk.armed = false → i = .reset ∨ ∃ a0, i = .wrTdelay a0 0) ∧
    (s.blk.armed = false → t.blk.armed = true →
      s.blk.tdelay ≠ 0 ∧ (isTick i = true ∨ i = .evPtick ∨ i = .evResync ∨ i = .evArm))

/-! ## TICK -/

/-- Every TICK advances TCNT, samples PINS, and last stores ZC in ZC_PREV whatever the phase
(41_zero_crossing.md R126; 40_tick.md R101, R103); it never writes TDELAY, DB_MASK or CTRL. -/
def Obligations.TickCountsAndSamples : Prop :=
  ∀ (s : State) (pin : BitVec 3) (zc : Bool), s.rst = false →
    ∃ t, exec (.tick pin zc) s = .next t ∧ t.blk.tcnt = s.blk.tcnt + 1 ∧ t.blk.pins = pin ∧
      t.blk.zcPrev = zc ∧ t.blk.SameHost s.blk ∧ t.rst = false ∧ t.rdata = none ∧
      t.pending = s.pending

/-- The frame of a tick in which no action of any unit is due: it changes TCNT, PINS and ZC_PREV and
nothing else (40_tick.md R100, example; R102, R106; 41_zero_crossing.md R125; 42_triac.md R151,
R152; 43_debounce.md R181, R188). -/
def Obligations.QuietTickChangesNothingElse : Prop :=
  ∀ (s : State) (pin : BitVec 3) (zc : Bool), s.rst = false → s.blk.goff = false →
    ¬ (s.blk.armed = true ∧ s.blk.tcnt + 1 = s.blk.tcmp) →
    (s.blk.zcPhase = .armFall → ¬ (s.blk.zcPrev = true ∧ zc = false)) →
    (s.blk.zcPhase = .armRise → ¬ (s.blk.zcPrev = false ∧ zc = true)) →
    (s.blk.zcPhase = .debFall ∨ s.blk.zcPhase = .debRise → s.blk.tcnt + 1 ≠ s.blk.zcCcr) →
    s.blk.dbMode ≠ .verify →
    (s.blk.dbMode = .idle → pin &&& s.blk.dbMask = s.blk.dbComm) →
    exec (.tick pin zc) s =
      .next { s with
        blk := { s.blk with tcnt := s.blk.tcnt + 1, pins := pin, zcPrev := zc }
        rdata := none }

/-- A TICK is the actions of its trace: it advances TCNT, samples PINS, does what each action of the trace
does itself, in the order of the trace, and stores ZC in ZC_PREV, and it changes nothing else; so the
trace names every action that changes an element (30_encoding.md R89; 40_tick.md R100, R107). A tick whose
trace is empty changes TCNT, PINS and ZC_PREV only. What each action writes itself is the model's reading
of its rule (log entry 14). -/
def Obligations.EmptyTraceMeansQuietTick : Prop :=
  ∀ (s : State) (pin : BitVec 3) (zc : Bool), s.rst = false →
    let start : Block := { s.blk with tcnt := s.blk.tcnt + 1, pins := pin }
    exec (.tick pin zc) s =
      .next { s with
        blk :=
          { runActions Config.params (tickEvents Config.params pin zc s.blk) start with zcPrev := zc }
        rdata := none } ∧
    (tickEvents Config.params pin zc s.blk = [] →
      exec (.tick pin zc) s = .next { s with blk := { start with zcPrev := zc }, rdata := none })

/-- Every TICK is a list of actions done in their order, in which "At most one zero-crossing channel
action happens per tick, chosen by ZC_PHASE at the start of the tick ... At most one debounce action
happens per tick ... At most one TRIAC action happens per tick" (40_tick.md R108). The debounce actions
are chosen by DB_MODE at the start of the tick. That the TICK is its trace's actions done in their order,
and what each action writes itself, is the model's reading of the rules (log entry 14); R108 gives the
bounds only. -/
def Obligations.AtMostOneActionOfEachUnit : Prop :=
  ∀ (s : State) (pin : BitVec 3) (zc : Bool), s.rst = false →
    let acts := tickEvents Config.params pin zc s.blk
    exec (.tick pin zc) s =
      .next { s with
        blk :=
          { runActions Config.params acts { s.blk with tcnt := s.blk.tcnt + 1, pins := pin } with
            zcPrev := zc }
        rdata := none } ∧
    acts.countP (fun i => i == .evFall || i == .evFdeb || i == .evRise || i == .evPtick) ≤ 1 ∧
    acts.countP
      (fun i => i == .evDbstep || i == .evCommit || i == .evAbort || i == .evDetect) ≤ 1 ∧
    acts.countP (fun i => i == .evNormal || i == .evRetry) ≤ 1 ∧
    (.evFall ∈ acts → s.blk.zcPhase = .armFall) ∧ (.evFdeb ∈ acts → s.blk.zcPhase = .debFall) ∧
    (.evRise ∈ acts → s.blk.zcPhase = .armRise) ∧ (.evPtick ∈ acts → s.blk.zcPhase = .debRise) ∧
    (.evDbstep ∈ acts → s.blk.dbMode = .counting) ∧
    (.evCommit ∈ acts ∨ .evAbort ∈ acts → s.blk.dbMode = .verify) ∧
    (.evDetect ∈ acts → s.blk.dbMode = .idle)

/-- GOFF at the start of a tick clears GATE and GOFF, and a fire later in that tick sets GATE again
(40_tick.md R102). -/
def Obligations.GatePulseEndsAtTheNextTick : Prop :=
  ∀ (s : State) (pin : BitVec 3) (zc : Bool), s.rst = false → s.blk.goff = true →
    ∃ t, exec (.tick pin zc) s = .next t ∧
      (¬ (s.blk.armed = true ∧ s.blk.tcnt + 1 = s.blk.tcmp) →
        t.blk.gate = false ∧ t.blk.goff = false) ∧
      (s.blk.armed = true ∧ s.blk.tcnt + 1 = s.blk.tcmp → t.blk.gate = true)

/-- In an ARM phase the edge of its direction is captured, and any other sample leaves the channel as it
was (41_zero_crossing.md R121, R123; R125). T is TCNT + 1. -/
def Obligations.EdgesAreCapturedInArmPhases : Prop :=
  ∀ (s : State) (pin : BitVec 3) (zc : Bool), s.rst = false →
    ∃ t, exec (.tick pin zc) s = .next t ∧
      (s.blk.zcPhase = .armFall → s.blk.zcPrev = true → zc = false →
        t.blk.fallT = s.blk.tcnt + 1 ∧ t.blk.zcCcr = s.blk.tcnt + 1 + 1000 ∧
        t.blk.zcPhase = .debFall ∧ t.blk.riseT = s.blk.riseT ∧ t.blk.SameMeasurement s.blk) ∧
      (s.blk.zcPhase = .armFall → ¬ (s.blk.zcPrev = true ∧ zc = false) →
        t.blk.SameCapture s.blk ∧ t.blk.SameMeasurement s.blk) ∧
      (s.blk.zcPhase = .armRise → s.blk.zcPrev = false → zc = true →
        t.blk.riseT = s.blk.tcnt + 1 ∧ t.blk.zcCcr = s.blk.tcnt + 1 + 4000 ∧
        t.blk.zcPhase = .debRise ∧ t.blk.fallT = s.blk.fallT ∧ t.blk.SameMeasurement s.blk) ∧
      (s.blk.zcPhase = .armRise → ¬ (s.blk.zcPrev = false ∧ zc = true) →
        t.blk.SameCapture s.blk ∧ t.blk.SameMeasurement s.blk)

/-- A debounce phase ignores edges and ends at the tick with T == ZC_CCR (41_zero_crossing.md R122; the
phase part of R124; R125). -/
def Obligations.DebouncePhasesEndAtTheirTarget : Prop :=
  ∀ (s : State) (pin : BitVec 3) (zc : Bool), s.rst = false →
    ∃ t, exec (.tick pin zc) s = .next t ∧
      (s.blk.zcPhase = .debFall ∨ s.blk.zcPhase = .debRise → s.blk.tcnt + 1 ≠ s.blk.zcCcr →
        t.blk.SameCapture s.blk ∧ t.blk.SameMeasurement s.blk) ∧
      (s.blk.zcPhase = .debFall → s.blk.tcnt + 1 = s.blk.zcCcr →
        t.blk.zcPhase = .armRise ∧ t.blk.fallT = s.blk.fallT ∧ t.blk.riseT = s.blk.riseT ∧
        t.blk.zcCcr = s.blk.zcCcr ∧ t.blk.SameMeasurement s.blk) ∧
      (s.blk.zcPhase = .debRise → s.blk.tcnt + 1 = s.blk.zcCcr →
        t.blk.zcPhase = .armFall ∧ t.blk.fallT = s.blk.fallT ∧ t.blk.riseT = s.blk.riseT ∧
        t.blk.zcCcr = s.blk.zcCcr ∧ t.blk.stTick = true)

/-- The first periodic tick records the peak and sets PKV; HALFPER, LOCK and STATUS.ZUPD are not
written, and ZCT, TCMP and ARMED only by a fire of the same tick (41_zero_crossing.md R128). -/
def Obligations.FirstPeriodicTickRecordsThePeak : Prop :=
  ∀ (s : State) (pin : BitVec 3) (zc : Bool), s.rst = false → s.blk.zcPhase = .debRise →
    s.blk.tcnt + 1 = s.blk.zcCcr → s.blk.pkv = false →
    ∃ t, exec (.tick pin zc) s = .next t ∧
      t.blk.peak = s.blk.fallT + ((s.blk.riseT - s.blk.fallT) >>> 1) ∧ t.blk.pkv = true ∧
      t.blk.stTick = true ∧ t.blk.halfper = s.blk.halfper ∧ t.blk.lock = s.blk.lock ∧
      t.blk.stZupd = s.blk.stZupd ∧ t.blk.armed = s.blk.armed ∧
      (¬ (s.blk.armed = true ∧ s.blk.tcnt + 1 = s.blk.tcmp) → t.blk.SameSchedule s.blk)

/-- Every later periodic tick measures HALFPER between the two peaks, modulo 2^16 and then halved
(41_zero_crossing.md R129). -/
def Obligations.LaterPeriodicTicksMeasure : Prop :=
  ∀ (s : State) (pin : BitVec 3) (zc : Bool), s.rst = false → s.blk.zcPhase = .debRise →
    s.blk.tcnt + 1 = s.blk.zcCcr → s.blk.pkv = true →
    ∃ t, exec (.tick pin zc) s = .next t ∧
      t.blk.peak = s.blk.fallT + ((s.blk.riseT - s.blk.fallT) >>> 1) ∧
      t.blk.halfper =
        (s.blk.fallT + ((s.blk.riseT - s.blk.fallT) >>> 1) - s.blk.peak) >>> 1 ∧
      t.blk.lock = true ∧ t.blk.pkv = true ∧ t.blk.stTick = true

/-- The resynchronisation policy of a measuring periodic tick (41_zero_crossing.md R130 to R135). With
HP the new half-period, C the candidate and `live` the projection as the fire of the same tick, if
there is one, leaves it (40_tick.md R107): a disabled scheduler or a large discrepancy replaces ZCT and
arms if TDELAY != 0; a small discrepancy changes no TRIAC state. -/
def Obligations.PeriodicTickResyncPolicy : Prop :=
  ∀ (s : State) (pin : BitVec 3) (zc : Bool), s.rst = false → s.blk.zcPhase = .debRise →
    s.blk.tcnt + 1 = s.blk.zcCcr → s.blk.pkv = true →
    let fire := s.blk.armed && (s.blk.tcnt + 1 == s.blk.tcmp)
    let normal := fire && (s.blk.delayOff || decide (Config.triacMinDelay < s.blk.tdelay))
    let liveZct := if normal then s.blk.zct + s.blk.halfper else s.blk.zct
    let liveTcmp :=
      if normal then s.blk.zct + s.blk.halfper + s.blk.tdelay
      else if fire then s.blk.tcmp + Config.triacExtend else s.blk.tcmp
    let liveDelayOff := if fire then !normal else s.blk.delayOff
    let liveGate := fire || (s.blk.gate && !s.blk.goff)
    let peak := s.blk.fallT + ((s.blk.riseT - s.blk.fallT) >>> 1)
    let hp := (peak - s.blk.peak) >>> 1
    let c := peak + (hp >>> 1) + hp
    let d0 := (c - liveZct).toInt
    let small := d0.natAbs ≤ (hp >>> 1).toNat ∨ (d0 - (hp.toNat : Int)).natAbs ≤ (hp >>> 1).toNat
    ∃ t, exec (.tick pin zc) s = .next t ∧ t.blk.gate = liveGate ∧
      (s.blk.armed = false ∨ ¬ small →
        t.blk.zct = c ∧ t.blk.stZupd = true ∧
        (s.blk.tdelay ≠ 0 →
          t.blk.tcmp = c + s.blk.tdelay ∧ t.blk.armed = true ∧ t.blk.delayOff = false ∧
          t.blk.goff = liveGate) ∧
        (s.blk.tdelay = 0 →
          t.blk.tcmp = liveTcmp ∧ t.blk.armed = s.blk.armed ∧ t.blk.delayOff = liveDelayOff ∧
          t.blk.goff = normal)) ∧
      (s.blk.armed = true → small →
        t.blk.zct = liveZct ∧ t.blk.tcmp = liveTcmp ∧ t.blk.armed = true ∧
        t.blk.delayOff = liveDelayOff ∧ t.blk.goff = normal ∧
        t.blk.stZupd = s.blk.stZupd)

/-- A compare match with TDELAY above the threshold, or with DELAYOFF set, takes the normal action
(42_triac.md R153 to R155), in a tick without a periodic tick. -/
def Obligations.MatchTakesTheNormalAction : Prop :=
  ∀ (s : State) (pin : BitVec 3) (zc : Bool), s.rst = false → s.blk.armed = true →
    s.blk.tcnt + 1 = s.blk.tcmp → Config.triacMinDelay < s.blk.tdelay ∨ s.blk.delayOff = true →
    ¬ (s.blk.zcPhase = .debRise ∧ s.blk.tcnt + 1 = s.blk.zcCcr) →
    ∃ t, exec (.tick pin zc) s = .next t ∧ t.blk.gate = true ∧ t.blk.goff = true ∧
      t.blk.delayOff = false ∧ t.blk.zct = s.blk.zct + s.blk.halfper ∧
      t.blk.tcmp = s.blk.zct + s.blk.halfper + s.blk.tdelay ∧ t.blk.armed = true ∧
      t.blk.SameMeasurement s.blk

/-- A compare match with TDELAY at or below the threshold and DELAYOFF clear takes the retry action
(42_triac.md R153, R154, R156), in a tick without a periodic tick. -/
def Obligations.MatchTakesTheRetryAction : Prop :=
  ∀ (s : State) (pin : BitVec 3) (zc : Bool), s.rst = false → s.blk.armed = true →
    s.blk.tcnt + 1 = s.blk.tcmp → ¬ Config.triacMinDelay < s.blk.tdelay →
    s.blk.delayOff = false →
    ¬ (s.blk.zcPhase = .debRise ∧ s.blk.tcnt + 1 = s.blk.zcCcr) →
    ∃ t, exec (.tick pin zc) s = .next t ∧ t.blk.gate = true ∧ t.blk.goff = false ∧
      t.blk.delayOff = true ∧ t.blk.zct = s.blk.zct ∧
      t.blk.tcmp = s.blk.tcmp + Config.triacExtend ∧ t.blk.armed = true ∧
      t.blk.SameMeasurement s.blk

/-- Without a match and without a periodic tick the schedule stays, and the gate only loses a pulse that
was to end (42_triac.md R151, R152; 40_tick.md R102). -/
def Obligations.NoMatchKeepsTheSchedule : Prop :=
  ∀ (s : State) (pin : BitVec 3) (zc : Bool), s.rst = false →
    ¬ (s.blk.armed = true ∧ s.blk.tcnt + 1 = s.blk.tcmp) →
    ¬ (s.blk.zcPhase = .debRise ∧ s.blk.tcnt + 1 = s.blk.zcCcr) →
    ∃ t, exec (.tick pin zc) s = .next t ∧ t.blk.SameSchedule s.blk ∧
      t.blk.gate = (s.blk.gate && !s.blk.goff) ∧ t.blk.goff = false

/-- The debounce step of a periodic tick in COUNTING (43_debounce.md R183); what a commit shows does not
change (R184). -/
def Obligations.DebounceStepAtThePeriodicTick : Prop :=
  ∀ (s : State) (pin : BitVec 3) (zc : Bool), s.rst = false → s.blk.dbMode = .counting →
    s.blk.zcPhase = .debRise → s.blk.tcnt + 1 = s.blk.zcCcr →
    ∃ t, exec (.tick pin zc) s = .next t ∧ t.blk.SameCommit s.blk ∧
      (pin &&& s.blk.dbMask ≠ s.blk.dbLast →
        t.blk.dbLast = pin &&& s.blk.dbMask ∧ t.blk.dbCnt = 5 ∧ t.blk.dbMode = .counting) ∧
      (pin &&& s.blk.dbMask = s.blk.dbLast →
        t.blk.dbLast = s.blk.dbLast ∧ t.blk.dbCnt = s.blk.dbCnt - 1 ∧
        t.blk.dbMode = if s.blk.dbCnt - 1 = 0 then .verify else .counting)

/-- The verify, at every tick that starts in VERIFY: it commits when the sample still is DB_LAST
(43_debounce.md R186) and otherwise aborts and starts the count again on the re-read value (R187). -/
def Obligations.VerifyCommitsOrAborts : Prop :=
  ∀ (s : State) (pin : BitVec 3) (zc : Bool), s.rst = false → s.blk.dbMode = .verify →
    ∃ t, exec (.tick pin zc) s = .next t ∧
      (pin &&& s.blk.dbMask = s.blk.dbLast →
        t.blk.dbchg = decide (s.blk.dbComm ≠ s.blk.dbLast) ∧ t.blk.dbComm = s.blk.dbLast ∧
        t.blk.dbv = true ∧ t.blk.dbMode = .idle ∧ t.blk.stDbc = true ∧
        t.blk.dbLast = s.blk.dbLast ∧ t.blk.dbCnt = s.blk.dbCnt) ∧
      (pin &&& s.blk.dbMask ≠ s.blk.dbLast →
        t.blk.dbMode = .counting ∧ t.blk.dbCnt = 5 ∧ t.blk.dbLast = pin &&& s.blk.dbMask ∧
        t.blk.SameCommit s.blk)

/-- Change detection, at every tick that starts in IDLE, periodic or not (43_debounce.md R188, R189). -/
def Obligations.DetectionInIdle : Prop :=
  ∀ (s : State) (pin : BitVec 3) (zc : Bool), s.rst = false → s.blk.dbMode = .idle →
    ∃ t, exec (.tick pin zc) s = .next t ∧
      (pin &&& s.blk.dbMask ≠ s.blk.dbComm →
        t.blk.dbMode = .counting ∧ t.blk.dbCnt = 5 ∧ t.blk.dbLast = pin &&& s.blk.dbMask ∧
        t.blk.SameCommit s.blk) ∧
      (pin &&& s.blk.dbMask = s.blk.dbComm → t.blk.SameFilter s.blk)

/-- In COUNTING the filter waits for the periodic tick: "Timer ticks do not advance it" (43_debounce.md
R181). -/
def Obligations.CountingWaitsForThePeriodicTick : Prop :=
  ∀ (s : State) (pin : BitVec 3) (zc : Bool), s.rst = false → s.blk.dbMode = .counting →
    ¬ (s.blk.zcPhase = .debRise ∧ s.blk.tcnt + 1 = s.blk.zcCcr) →
    ∃ t, exec (.tick pin zc) s = .next t ∧ t.blk.SameFilter s.blk

/-- "DBC is never set in the same tick as TICK" (60_exceptions.md R254). -/
def Obligations.CommitNeverWithAPeriodicTick : Prop :=
  ∀ (s t : State) (pin : BitVec 3) (zc : Bool), s.blk.Inv →
    exec (.tick pin zc) s = .next t →
    s.blk.stTick = false → s.blk.stDbc = false → ¬ (t.blk.stTick = true ∧ t.blk.stDbc = true)

/-! ## The internal actions by themselves -/

/-- EV_GOFF, EV_FALL, EV_FDEB, EV_RISE and EV_PTICK (40_tick.md R102; 41_zero_crossing.md R121 to R124).
T is TCNT, as the tick has advanced it already. That an action runs by itself is the model's own
(log entry 4). -/
def Obligations.ChannelActions : Prop :=
  ∀ s : State, s.rst = false →
    (s.blk.goff = true →
      exec .evGoff s =
        .next { s with blk := { s.blk with gate := false, goff := false }, rdata := none }) ∧
    (s.blk.zcPhase = .armFall → s.blk.zcPrev = true →
      exec .evFall s =
        .next { s with
          blk := { s.blk with
            fallT := s.blk.tcnt, zcCcr := s.blk.tcnt + 1000, zcPhase := .debFall }
          rdata := none }) ∧
    (s.blk.zcPhase = .debFall → s.blk.tcnt = s.blk.zcCcr →
      exec .evFdeb s = .next { s with blk := { s.blk with zcPhase := .armRise }, rdata := none }) ∧
    (s.blk.zcPhase = .armRise → s.blk.zcPrev = false →
      exec .evRise s =
        .next { s with
          blk := { s.blk with
            riseT := s.blk.tcnt, zcCcr := s.blk.tcnt + 4000, zcPhase := .debRise }
          rdata := none }) ∧
    (s.blk.zcPhase = .debRise → s.blk.tcnt = s.blk.zcCcr → s.blk.pkv = false →
      s.blk.dbMode ≠ .counting →
      exec .evPtick s =
        .next { s with
          blk := { s.blk with
            zcPhase := .armFall
            peak := s.blk.fallT + ((s.blk.riseT - s.blk.fallT) >>> 1)
            pkv := true
            stTick := true }
          rdata := none }) ∧
    (s.blk.zcPhase = .debRise → s.blk.tcnt = s.blk.zcCcr →
      ∃ t, exec .evPtick s = .next t ∧ t.blk.zcPhase = .armFall ∧
        t.blk.peak = s.blk.fallT + ((s.blk.riseT - s.blk.fallT) >>> 1) ∧ t.blk.pkv = true ∧
        t.blk.stTick = true ∧ t.blk.tcnt = s.blk.tcnt ∧ t.blk.SameCommit s.blk ∧
        t.blk.SameHost s.blk ∧
        (s.blk.pkv = true →
          t.blk.halfper =
            (s.blk.fallT + ((s.blk.riseT - s.blk.fallT) >>> 1) - s.blk.peak) >>> 1 ∧
          t.blk.lock = true) ∧
        (s.blk.dbMode ≠ .counting → t.blk.SameFilter s.blk))

/-- An action whose guard does not hold changes nothing (40_tick.md R102; 41_zero_crossing.md R121 to
R124, R133; 42_triac.md R153; 43_debounce.md R186 to R188). That an action runs by itself is the model's
own (log entry 4). -/
def Obligations.ActionsAwaitTheirGuards : Prop :=
  ∀ s : State, s.rst = false →
    let same := Host.Outcome.next (φ := Fault) (ρ := Refusal) { s with rdata := none }
    let v := s.blk.pins &&& s.blk.dbMask
    (s.blk.goff = false → exec .evGoff s = same) ∧
    (¬ (s.blk.zcPhase = .armFall ∧ s.blk.zcPrev = true) → exec .evFall s = same) ∧
    (¬ (s.blk.zcPhase = .debFall ∧ s.blk.tcnt = s.blk.zcCcr) → exec .evFdeb s = same) ∧
    (¬ (s.blk.zcPhase = .armRise ∧ s.blk.zcPrev = false) → exec .evRise s = same) ∧
    (¬ (s.blk.zcPhase = .debRise ∧ s.blk.tcnt = s.blk.zcCcr) → exec .evPtick s = same) ∧
    (s.blk.armed = true → s.blk.small = true → exec .evResync s = same) ∧
    (¬ (s.blk.armed = true ∧ s.blk.tcnt = s.blk.tcmp) → exec .evFire s = same) ∧
    (¬ (s.blk.dbMode = .verify ∧ v = s.blk.dbLast) → exec .evCommit s = same) ∧
    (¬ (s.blk.dbMode = .verify ∧ v ≠ s.blk.dbLast) → exec .evAbort s = same) ∧
    (¬ (s.blk.dbMode = .idle ∧ v ≠ s.blk.dbComm) → exec .evDetect s = same)

/-- EV_FIRST, EV_MEASURE, EV_RESYNC while disabled or with a large discrepancy, and EV_ARM
(41_zero_crossing.md R128 to R134). EV_RESYNC with a small discrepancy while armed changes nothing:
ActionsAwaitTheirGuards. That an action runs by itself is the model's own (log entry 4). -/
def Obligations.MeasurementActions : Prop :=
  ∀ s : State, s.rst = false →
    let peak := s.blk.fallT + ((s.blk.riseT - s.blk.fallT) >>> 1)
    let q := s.blk.halfper >>> 1
    let c := s.blk.peak + q + s.blk.halfper
    let d0 := (c - s.blk.zct).toInt
    let small := d0.natAbs ≤ q.toNat ∨ (d0 - (s.blk.halfper.toNat : Int)).natAbs ≤ q.toNat
    exec .evFirst s =
      .next { s with blk := { s.blk with peak := peak, pkv := true }, rdata := none } ∧
    exec .evMeasure s =
      .next { s with
        blk := { s.blk with halfper := (peak - s.blk.peak) >>> 1, peak := peak, lock := true }
        rdata := none } ∧
    (s.blk.armed = false ∨ ¬ small → s.blk.tdelay = 0 →
      exec .evResync s =
        .next { s with blk := { s.blk with zct := c, stZupd := true }, rdata := none }) ∧
    (s.blk.armed = false ∨ ¬ small → s.blk.tdelay ≠ 0 →
      exec .evResync s =
        .next { s with
          blk := { s.blk with
            zct := c, stZupd := true, tcmp := c + s.blk.tdelay, armed := true, delayOff := false
            goff := if s.blk.gate then true else s.blk.goff }
          rdata := none }) ∧
    (s.blk.tdelay ≠ 0 →
      exec .evArm s =
        .next { s with
          blk := { s.blk with
            tcmp := s.blk.zct + s.blk.tdelay, armed := true, delayOff := false
            goff := if s.blk.gate then true else s.blk.goff }
          rdata := none }) ∧
    (s.blk.tdelay = 0 → exec .evArm s = .next { s with rdata := none })

/-- EV_FIRE with its two actions, EV_NORMAL and EV_RETRY (42_triac.md R153 to R156). That an action runs
by itself is the model's own (log entry 4). -/
def Obligations.TriacActions : Prop :=
  ∀ s : State, s.rst = false →
    let normal : State :=
      { s with
        blk := { s.blk with
          delayOff := false, zct := s.blk.zct + s.blk.halfper
          tcmp := s.blk.zct + s.blk.halfper + s.blk.tdelay, goff := true }
        rdata := none }
    let retry : State :=
      { s with
        blk := { s.blk with tcmp := s.blk.tcmp + Config.triacExtend, delayOff := true }
        rdata := none }
    exec .evNormal s = .next normal ∧ exec .evRetry s = .next retry ∧
    (s.blk.armed = true → s.blk.tcnt = s.blk.tcmp →
      (Config.triacMinDelay < s.blk.tdelay ∨ s.blk.delayOff = true →
        exec .evFire s = .next { normal with blk := { normal.blk with gate := true } }) ∧
      (¬ (Config.triacMinDelay < s.blk.tdelay ∨ s.blk.delayOff = true) →
        exec .evFire s = .next { retry with blk := { retry.blk with gate := true } }))

/-- EV_DBSTEP, EV_COMMIT, EV_ABORT and EV_DETECT (43_debounce.md R183, R186 to R188). That an action runs
by itself is the model's own (log entry 4). -/
def Obligations.FilterActions : Prop :=
  ∀ s : State, s.rst = false →
    let v := s.blk.pins &&& s.blk.dbMask
    let again : State :=
      { s with
        blk := { s.blk with dbMode := .counting, dbCnt := 5, dbLast := v }
        rdata := none }
    (v ≠ s.blk.dbLast →
      exec .evDbstep s =
        .next { s with blk := { s.blk with dbLast := v, dbCnt := 5 }, rdata := none }) ∧
    (v = s.blk.dbLast →
      exec .evDbstep s =
        .next { s with
          blk := { s.blk with
            dbCnt := s.blk.dbCnt - 1
            dbMode := if s.blk.dbCnt - 1 = 0 then .verify else s.blk.dbMode }
          rdata := none }) ∧
    (s.blk.dbMode = .verify → v = s.blk.dbLast →
      exec .evCommit s =
        .next { s with
          blk := { s.blk with
            dbchg := decide (s.blk.dbComm ≠ s.blk.dbLast), dbComm := s.blk.dbLast, dbv := true
            dbMode := .idle, stDbc := true }
          rdata := none }) ∧
    (s.blk.dbMode = .verify → v ≠ s.blk.dbLast → exec .evAbort s = .next again) ∧
    (s.blk.dbMode = .idle → v ≠ s.blk.dbComm → exec .evDetect s = .next again)

/-- A stable input (43_debounce.md R191, R193; vector B10). In a run of TICKs, RDs and WRs without a WR to
DB_MASK, from COUNTING with DB_CNT = k, which is 5 at the start of a count (DEBOUNCE_LEN), let the masked
sample of every periodic tick be DB_LAST. While there are fewer than k periodic ticks the filter counts
them down and commits nothing; the k-th enters VERIFY, still with nothing committed; and the TICK after
it, with the same masked sample, commits DB_LAST once: the filter then is IDLE, and stays so, with the
commit as it was made, while the sample stays. The second clause says the same of bare EV_DBSTEP codes:
five reach VERIFY and no fewer do, which is the model's own (log entry 4). -/
def Obligations.FiveStableStepsReachVerify : Prop :=
  (∀ (before after : List Instr) (pin pin' : BitVec 3) (zc zc' : Bool) (k : Nat) (s : State),
    let v := s.blk.dbLast
    let quiet (is : List Instr) : Prop := NoReset is ∧ ∀ a0 d, .wrDbmask a0 d ∉ is
    s.rst = false → s.blk.dbMode = .counting → k ≤ 5 → s.blk.dbCnt = BitVec.ofNat 3 k →
    quiet before → (periodicSamples before s).length < k →
    (∀ x ∈ periodicSamples before s, x &&& s.blk.dbMask = v) →
    ∃ t, execAll before s = .next t ∧ t.blk.dbMode = .counting ∧
      t.blk.dbCnt = BitVec.ofNat 3 (k - (periodicSamples before s).length) ∧ t.blk.dbLast = v ∧
      t.blk.dbComm = s.blk.dbComm ∧ t.blk.dbv = s.blk.dbv ∧ t.blk.dbchg = s.blk.dbchg ∧
      (s.blk.stDbc = false → t.blk.stDbc = false) ∧
      ((periodicSamples before s).length + 1 = k → t.blk.periodicDue = true →
        pin &&& s.blk.dbMask = v → pin' &&& s.blk.dbMask = v →
        ∃ u w, exec (.tick pin zc) t = .next u ∧ u.blk.dbMode = .verify ∧
          u.blk.SameCommit t.blk ∧ exec (.tick pin' zc') u = .next w ∧
          w.blk.dbMode = .idle ∧ w.blk.dbComm = v ∧ w.blk.dbv = true ∧ w.blk.stDbc = true ∧
          w.blk.dbchg = decide (s.blk.dbComm ≠ v) ∧
          (quiet after → (∀ x z, .tick x z ∈ after → x &&& s.blk.dbMask = v) →
            ∃ y, execAll after w = .next y ∧ y.blk.dbMode = .idle ∧ y.blk.dbComm = v ∧
              y.blk.dbv = true ∧ y.blk.dbchg = w.blk.dbchg))) ∧
  ∀ (s : State) (n : Nat), s.rst = false → s.blk.dbMode = .counting → s.blk.dbCnt = 5 →
    s.blk.pins &&& s.blk.dbMask = s.blk.dbLast → n ≤ 5 →
    execAll (List.replicate n .evDbstep) { s with rdata := none } =
      .next { s with
        blk := { s.blk with
          dbCnt := BitVec.ofNat 3 (5 - n), dbMode := if n = 5 then .verify else .counting }
        rdata := none }

/-! ## The host's reads -/

/-- RD_CTRL, RD_TCNT, RD_HALFPER, RD_ZCT, RD_TDELAY, RD_TCMP and RD_RSVD return their register, extended
with zeros, and change no element (44_host_bus.md R210, R212, R216, R218, R220, R222, R224, R240).
ADDR[0] does not matter. -/
def Obligations.ReadsOfControlAndSchedule : Prop :=
  ∀ (s : State) (a0 : Bool) (addr : Addr), s.rst = false →
    exec (.rdCtrl a0) s = .next { s with rdata := some (s.blk.ctrl.setWidth 16) } ∧
    exec (.rdTcnt a0) s = .next { s with rdata := some s.blk.tcnt } ∧
    exec (.rdHalfper a0) s = .next { s with rdata := some s.blk.halfper } ∧
    exec (.rdZct a0) s = .next { s with rdata := some s.blk.zct } ∧
    exec (.rdTdelay a0) s = .next { s with rdata := some s.blk.tdelay } ∧
    exec (.rdTcmp a0) s = .next { s with rdata := some s.blk.tcmp } ∧
    exec (.rdRsvd addr) s = .next { s with rdata := some 0x0000 }

/-- RD_PEAK, RD_FALLT, RD_RISET, RD_ZCCCR, RD_DBMASK, RD_DBSTATE and RD_PINS return their register and
change no element; DBSTATE in the layout of 10_state.md R47 (44_host_bus.md R210, R226, R228, R230,
R232, R234, R236, R238). -/
def Obligations.ReadsOfCapturesAndFilter : Prop :=
  ∀ (s : State) (a0 : Bool), s.rst = false →
    exec (.rdPeak a0) s = .next { s with rdata := some s.blk.peak } ∧
    exec (.rdFallt a0) s = .next { s with rdata := some s.blk.fallT } ∧
    exec (.rdRiset a0) s = .next { s with rdata := some s.blk.riseT } ∧
    exec (.rdZcccr a0) s = .next { s with rdata := some s.blk.zcCcr } ∧
    exec (.rdDbmask a0) s = .next { s with rdata := some (s.blk.dbMask.setWidth 16) } ∧
    exec (.rdPins a0) s = .next { s with rdata := some (s.blk.pins.setWidth 16) } ∧
    ∃ v : Word, exec (.rdDbstate a0) s = .next { s with rdata := some v } ∧
      v.toNat = s.blk.dbCnt.toNat * 256 + s.blk.dbLast.toNat * 16 + s.blk.dbComm.toNat

/-- RD_STATUS returns the layout of 10_state.md R46, bit by bit, and changes no element (44_host_bus.md
R214). -/
def Obligations.StatusReadLayout : Prop :=
  ∀ (s : State) (a0 : Bool), s.rst = false →
    ∃ v : Word, exec (.rdStatus a0) s = .next { s with rdata := some v } ∧
      v.getLsbD 0 = s.blk.stTick ∧ v.getLsbD 1 = s.blk.stDbc ∧ v.getLsbD 2 = s.blk.stZupd ∧
      v.getLsbD 3 = s.blk.dbchg ∧ v.getLsbD 4 = s.blk.dbv ∧ v.getLsbD 5 = s.blk.pkv ∧
      v.getLsbD 6 = s.blk.lock ∧ v.getLsbD 7 = s.blk.armed ∧ v.getLsbD 8 = s.blk.delayOff ∧
      v.getLsbD 9 = s.blk.gate ∧ v.getLsbD 10 = s.blk.zcPrev ∧
      v.getLsbD 11 = decide (s.blk.zcPhase = .debFall ∨ s.blk.zcPhase = .debRise) ∧
      v.getLsbD 12 = decide (s.blk.zcPhase = .armRise ∨ s.blk.zcPhase = .debRise) ∧
      v.getLsbD 13 = decide (s.blk.dbMode = .counting) ∧
      v.getLsbD 14 = decide (s.blk.dbMode = .verify) ∧ v.getLsbD 15 = s.blk.goff

/-- Every RD word, at each of the 256 byte addresses, runs an instruction that returns what the register
map gives for that address and changes no element; the map ignores ADDR[0] and reads 0 at every
reserved offset (20_memory.md R60, R63, R67; 10_state.md R45, R48). -/
def Obligations.EveryReadFollowsTheRegisterMap : Prop :=
  ∀ (addr : Addr) (s : State),
    (∃ i, decodeWord (encodeRd addr) = .ok i ∧
      exec i s = .next { s with rdata := some (readReg addr s.visible) }) ∧
    readReg addr s.blk = readReg (addr &&& 0xFE) s.blk ∧
    (0x1C ≤ addr.toNat → readReg addr s.blk = 0)

/-- "Two RDs of one register with no TICK or WR between them return the same value" (20_memory.md R66);
other RDs may stand between them. -/
def Obligations.ReadsAreIdempotent : Prop :=
  ∀ (addr : Addr) (i : Instr) (between : List Instr) (s t u v : State),
    decodeWord (encodeRd addr) = .ok i →
    (∀ j ∈ between, ∃ a, decodeWord (encodeRd a) = .ok j) →
    exec i s = .next t → execAll between t = .next u → exec i u = .next v →
    v.rdata = t.rdata ∧ v.blk = s.blk

/-! ## The host's writes -/

/-- WR_CTRL writes CTRL[2:0] and nothing else (44_host_bus.md R213); IRQ follows at once. -/
def Obligations.WriteOfCtrl : Prop :=
  ∀ (s : State) (a0 : Bool) (d : Word), s.rst = false →
    ∃ t, exec (.wrCtrl a0 d) s = .next t ∧
      t = { s with blk := { s.blk with ctrl := d.setWidth 3 }, rdata := none } ∧
      t.blk.irq =
        (s.blk.stTick && d.getLsbD 0 || s.blk.stDbc && d.getLsbD 1 ||
          s.blk.stZupd && d.getLsbD 2)

/-- WR_STATUS clears each of TICK, DBC and ZUPD whose bit is written as 1, and nothing else
(44_host_bus.md R215). -/
def Obligations.WriteOfStatus : Prop :=
  ∀ (s : State) (a0 : Bool) (d : Word), s.rst = false →
    exec (.wrStatus a0 d) s =
      .next { s with
        blk := { s.blk with
          stTick := if d.getLsbD 0 then false else s.blk.stTick
          stDbc := if d.getLsbD 1 then false else s.blk.stDbc
          stZupd := if d.getLsbD 2 then false else s.blk.stZupd }
        rdata := none }

/-- WR_TDELAY writes TDELAY; a write of 0 clears ARMED, DELAYOFF, GATE and GOFF at once, any other
changes nothing else (44_host_bus.md R223). -/
def Obligations.WriteOfTdelay : Prop :=
  ∀ (s : State) (a0 : Bool) (d : Word), s.rst = false →
    (d ≠ 0 →
      exec (.wrTdelay a0 d) s =
        .next { s with blk := { s.blk with tdelay := d }, rdata := none }) ∧
    (d = 0 →
      exec (.wrTdelay a0 d) s =
        .next { s with
          blk := { s.blk with
            tdelay := 0, armed := false, delayOff := false, gate := false, goff := false }
          rdata := none })

/-- WR_DBMASK writes DB_MASK and re-masks DB_COMM and DB_LAST, and nothing else (44_host_bus.md R235). -/
def Obligations.WriteOfDbmask : Prop :=
  ∀ (s : State) (a0 : Bool) (d : Word), s.rst = false →
    exec (.wrDbmask a0 d) s =
      .next { s with
        blk := { s.blk with
          dbMask := d.setWidth 3
          dbComm := s.blk.dbComm &&& d.setWidth 3
          dbLast := s.blk.dbLast &&& d.setWidth 3 }
        rdata := none }

/-- The writes that are ignored change no element (44_host_bus.md R217, R219, R221, R225, R227, R229,
R231, R233, R237, R239, R241). -/
def Obligations.IgnoredWrites : Prop :=
  ∀ (s : State) (a0 : Bool) (addr : Addr) (d : Word),
    let same := Host.Outcome.next (φ := Fault) (ρ := Refusal) { s with rdata := none }
    exec (.wrTcnt a0 d) s = same ∧ exec (.wrHalfper a0 d) s = same ∧
    exec (.wrZct a0 d) s = same ∧ exec (.wrTcmp a0 d) s = same ∧ exec (.wrPeak a0 d) s = same ∧
    exec (.wrFallt a0 d) s = same ∧ exec (.wrRiset a0 d) s = same ∧
    exec (.wrZcccr a0 d) s = same ∧ exec (.wrDbstate a0 d) s = same ∧
    exec (.wrPins a0 d) s = same ∧ exec (.wrRsvd addr d) s = same

/-- Every WR word, at each of the 256 byte addresses and for all data, runs an instruction that does what
the register map gives for that address; the map ignores ADDR[0], and a write at a reserved offset
changes no element (44_host_bus.md R211; 20_memory.md R60, R63, R67). -/
def Obligations.EveryWriteFollowsTheRegisterMap : Prop :=
  ∀ (addr : Addr) (d : Word) (s : State), s.rst = false →
    (∃ i, decodeWord (encodeWr addr d) = .ok i ∧
      exec i s = .next { s with blk := writeReg addr d s.blk, rdata := none }) ∧
    writeReg addr d s.blk = writeReg (addr &&& 0xFE) d s.blk ∧
    (0x1C ≤ addr.toNat → writeReg addr d s.blk = s.blk)

/-! ## Outputs, reset and the RST line -/

/-- IRQ is high exactly while a pending event is enabled, which is when STATUS[2:0] and CTRL[2:0] share a
1; it is a level that only a WR of CTRL or STATUS, or RESET, takes down (10_state.md R44). GATE_OUT and
IND_OUT mirror GATE and ARMED (R43). -/
def Obligations.OutputsFollowTheState : Prop :=
  (∀ b : Block,
    (b.irq = true ↔
      (b.stTick = true ∧ b.ctrl.getLsbD 0 = true) ∨ (b.stDbc = true ∧ b.ctrl.getLsbD 1 = true) ∨
        (b.stZupd = true ∧ b.ctrl.getLsbD 2 = true)) ∧
    (b.irq = true ↔ b.statusWord &&& b.ctrl.setWidth 16 ≠ 0) ∧
    b.gateOut = b.gate ∧ b.indOut = b.armed) ∧
  ∀ (i : Instr) (s t : State), s.rst = false → exec i s = .next t → s.blk.irq = true →
    t.blk.irq = true ∨ i = .reset ∨ ∃ a0 d, i = .wrStatus a0 d ∨ i = .wrCtrl a0 d

/-- RESET: every element takes its reset value, every register then reads its reset value, the outputs
are 0, TCNT is 0x0000, and applying it twice is applying it once (70_reset_and_hazards.md R280;
10_state.md R45, R49). -/
def Obligations.ResetOperation : Prop :=
  ∀ (s : State),
    ∃ t, exec .reset s = .next t ∧ t.blk = Block.reset ∧ t.rst = s.rst ∧ t.pending = s.pending ∧
      exec .reset t = .next t ∧
      t.blk.gateOut = false ∧ t.blk.indOut = false ∧ t.blk.irq = false ∧
      readReg 0x02 t.blk = 0x2000 ∧ readReg 0x16 t.blk = 0x0007 ∧ readReg 0x18 t.blk = 0x0577 ∧
      readReg 0x1A t.blk = 0x0007 ∧
      ∀ k ∈ [0x00, 0x04, 0x06, 0x08, 0x0A, 0x0C, 0x0E, 0x10, 0x12, 0x14],
        readReg k t.blk = 0x0000

/-- The RST line: power-up and a rising edge apply one RESET; while it is high every TICK is a RESET, WRs
are ignored and RDs return reset values; when it falls the elements stay and a TICK is ordinary again
(70_reset_and_hazards.md R281). -/
def Obligations.RstHoldsTheBlockInReset : Prop :=
  State.reset.blk = Block.reset ∧
  (∀ (s : State) (rest : List Input), s.pending = .rst true :: rest → s.rst = false →
    step s = .next { blk := Block.reset, rst := true, rdata := none, pending := rest }) ∧
  (∀ (s : State) (rest : List Input), s.pending = .rst false :: rest →
    step s = .next { s with rst := false, rdata := none, pending := rest }) ∧
  (∀ (s : State) pin zc, s.rst = false →
    exec (.tick pin zc) s =
      .next { s with blk := tick Config.params pin zc s.blk, rdata := none }) ∧
  (∀ s : State, s.rst = true →
    (∀ pin zc, exec (.tick pin zc) s = .next { s with blk := Block.reset, rdata := none }) ∧
    (∀ addr d i, decodeWord (encodeWr addr d) = .ok i →
      exec i s = .next { s with rdata := none }) ∧
    (∀ addr i, decodeWord (encodeRd addr) = .ok i →
      exec i s = .next { s with rdata := some (readReg addr Block.reset) }))

/-- On a byte-addressed host bus, byte address 2k carries register bits 7:0 and byte address 2k+1 bits
15:8 (20_memory.md R64). -/
def Obligations.ByteLanesAreLittleEndian : Prop :=
  ∀ (b : Block) (k : BitVec 7),
    byteLane (k ++ 0#1) b = (readReg (k ++ 0#1) b).extractLsb' 0 8 ∧
    byteLane (k ++ 1#1) b = (readReg (k ++ 0#1) b).extractLsb' 8 8

/-! ## Whole runs -/

/-- TCNT counts the TICKs of any sequence of TICKs, RDs and WRs modulo 2^16; so two equal reads of TCNT
with fewer than 65536 ticks between them have no tick between them (20_memory.md R73). -/
def Obligations.SnapshotProtocol : Prop :=
  ∀ (is : List Instr) (s t : State), s.rst = false → NoReset is → execAll is s = .next t →
    t.blk.tcnt = s.blk.tcnt + BitVec.ofNat 16 (is.countP isTick) ∧
    (is.countP isTick < 65536 → t.blk.tcnt = s.blk.tcnt → is.countP isTick = 0)

/-- "Consecutive accepted falling edges are at least 5002 ticks apart" (41_zero_crossing.md R136): after
a capture no operation sequence of fewer than 5002 ticks captures another, whatever ZC_IN does and
whatever the host does between the ticks, and none of fewer than 5001 has a periodic tick. -/
def Obligations.ShortestCaptureCycle : Prop :=
  ∀ (is : List Instr) (s t : State), s.rst = false → NoReset is →
    s.blk.zcPhase = .debFall → s.blk.fallT = s.blk.tcnt → s.blk.zcCcr = s.blk.tcnt + 1000 →
    execAll is s = .next t →
    (is.countP isTick < 5002 → t.blk.fallT = s.blk.fallT) ∧
    (is.countP isTick < 5001 →
      t.blk.peak = s.blk.peak ∧ t.blk.pkv = s.blk.pkv ∧ t.blk.halfper = s.blk.halfper ∧
      t.blk.lock = s.blk.lock ∧ (s.blk.stTick = false → t.blk.stTick = false))

/-- Without mains pulses the channel waits in its ARM phase without limit, nothing is measured, and no
debounce commit happens but one already pending (60_exceptions.md R264; 43_debounce.md R195). -/
def Obligations.NoMainsNoPeriodicTick : Prop :=
  ∀ (is : List Instr) (s t : State), s.rst = false → NoReset is →
    s.blk.zcPhase = .armFall ∨ s.blk.zcPhase = .armRise → NoMains s.blk.zcPrev is →
    execAll is s = .next t →
    t.blk.SameCapture s.blk ∧ t.blk.peak = s.blk.peak ∧ t.blk.pkv = s.blk.pkv ∧
    t.blk.halfper = s.blk.halfper ∧ t.blk.lock = s.blk.lock ∧ t.blk.zcPrev = s.blk.zcPrev ∧
    (s.blk.stTick = false → t.blk.stTick = false) ∧
    (s.blk.dbMode ≠ .verify →
      t.blk.dbMode ≠ .verify ∧ t.blk.dbv = s.blk.dbv ∧ t.blk.dbchg = s.blk.dbchg ∧
      (s.blk.stDbc = false → t.blk.stDbc = false))

/-- With TDELAY at 0 the block never arms and the gate never pulses, through any operations but a nonzero
write to TDELAY (42_triac.md R161; 70_reset_and_hazards.md R291). -/
def Obligations.ZeroDelayNeverFires : Prop :=
  ∀ (is : List Instr) (s t : State), s.blk.tdelay = 0 → s.blk.armed = false →
    s.blk.gate = false → s.blk.goff = false →
    (∀ i ∈ is, i.isEvent = false ∧ ∀ a0 d, i = .wrTdelay a0 d → d = 0) →
    execAll is s = .next t →
    t.blk.tdelay = 0 ∧ t.blk.armed = false ∧ t.blk.gate = false ∧ t.blk.goff = false

/-- A retry pulse lasts TRIAC_EXTEND + 1 ticks (42_triac.md R157, R158): after the retry action, while the
zero-crossing channel waits, GATE and DELAYOFF stay 1 for fewer than TRIAC_EXTEND further ticks, the
tick number TRIAC_EXTEND takes the normal action, and the one after it ends the pulse unless its own
compare matches. -/
def Obligations.RetryPulseLength : Prop :=
  ∀ (levels : List (BitVec 3 × Bool)) (s : State), s.rst = false →
    s.blk.zcPhase = .armFall ∨ s.blk.zcPhase = .armRise →
    NoMains s.blk.zcPrev (ticks levels) →
    s.blk.armed = true → s.blk.gate = true → s.blk.goff = false → s.blk.delayOff = true →
    s.blk.tcmp = s.blk.tcnt + Config.triacExtend →
    ∃ t, execAll (ticks levels) s = .next t ∧
      (levels.length < Config.triacExtend.toNat → t.blk.gate = true ∧ t.blk.delayOff = true) ∧
      (levels.length = Config.triacExtend.toNat →
        t.blk.gate = true ∧ t.blk.delayOff = false ∧ t.blk.goff = true ∧
        t.blk.zct = s.blk.zct + s.blk.halfper ∧
        t.blk.tcmp = s.blk.zct + s.blk.halfper + s.blk.tdelay) ∧
      (levels.length = Config.triacExtend.toNat + 1 →
        s.blk.zct + s.blk.halfper + s.blk.tdelay ≠ s.blk.tcnt + Config.triacExtend + 1 →
        t.blk.gate = false ∧ t.blk.goff = false)

/-! ## Invariants -/

/-- The invariant holds right after reset. Its `heldInReset` and `hardwareInputs` rest on the model's own
reset values of RST and of the pending list (log entries 1 and 3). -/
def Obligations.InvariantHoldsAtReset : Prop := State.reset.Inv

/-- Every step keeps the invariant, from every state that has it. -/
def Obligations.EveryStepKeepsTheInvariant : Prop :=
  ∀ s t : State, s.Inv → step s = .next t → t.Inv

/-- Every run of hardware inputs from a state with the invariant is safe: the gate is never driven while
the scheduler is disabled (42_triac.md R151), and no step is a fault (60_exceptions.md R250). -/
def Obligations.EveryRunIsSafe : Prop := ∀ s : State, s.Inv → SafeRun s

/-! ## The assembler's pseudo-operations -/

/-- The expansions of IDLE, DISABLE, CLRSTAT and CYCLE (30_encoding.md R91). -/
def Obligations.PseudoOperationExpansions : Prop :=
  (∀ n zc pins, (expand (.idle n zc pins)).length = n ∧
    ∀ i ∈ expand (.idle n zc pins), i = .tick pins zc) ∧
  expand .disable = [.wrTdelay false 0] ∧ (∀ m, expand (.clrstat m) = [.wrStatus false m]) ∧
  (∀ f w p pins, (expand (.cycle f w p pins)).length = p ∧
    ∀ k, 1 ≤ k → k ≤ p →
      (expand (.cycle f w p pins))[k - 1]? =
        some (.tick pins (decide (¬ (f ≤ k ∧ k < f + w)))))
end

