-- ==== Sys2Proof/Laws/Decode.lean ====
section
/-! SUPPORT. The fields of an encoded word, the words put together again from their fields, and what the
two columns of the opcode map decode to. -/

namespace Sys2Proof

/-! ## Words and their fields -/

/-- A RD or WR word is its four fields. -/
theorem word_fields (w : OpWord) :
    opField w ++ w.extractLsb' 24 6 ++ addrField w ++ wdataField w = w := by
  apply BitVec.eq_of_getLsbD_eq
  intro i hi
  simp only [opField, addrField, wdataField, BitVec.getLsbD_append, BitVec.getLsbD_extractLsb']
  split
  · rename_i h
    simp only [h, decide_true, Bool.true_and]
    congr 1
    omega
  · split
    · rename_i h
      simp only [h, decide_true, Bool.true_and]
      congr 1
      omega
    · split
      · rename_i h
        simp only [h, decide_true, Bool.true_and]
        congr 1
        omega
      · have : i - 16 - 8 - 6 < 2 := by omega
        simp only [this, decide_true, Bool.true_and]
        congr 1
        omega

/-- A TICK word is its four fields. -/
theorem word_tick_fields (w : OpWord) :
    opField w ++ w.extractLsb' 4 26 ++ pinField w ++ BitVec.ofBool (zcField w) = w := by
  apply BitVec.eq_of_getLsbD_eq
  intro i hi
  simp only [opField, pinField, zcField, BitVec.getLsbD_append, BitVec.getLsbD_extractLsb']
  split
  · have : i = 0 := by omega
    subst this
    simp
  · split
    · rename_i h
      simp only [h, decide_true, Bool.true_and]
      congr 1
      omega
    · split
      · rename_i h
        simp only [h, decide_true, Bool.true_and]
        congr 1
        omega
      · have : i - 1 - 3 - 26 < 2 := by omega
        simp only [this, decide_true, Bool.true_and]
        congr 1
        omega

/-- A RESET word is its two fields. -/
theorem word_reset_fields (w : OpWord) : opField w ++ w.extractLsb' 0 30 = w := by
  apply BitVec.eq_of_getLsbD_eq
  intro i hi
  simp only [opField, BitVec.getLsbD_append, BitVec.getLsbD_extractLsb']
  split
  · rename_i h
    simp only [h, decide_true, Bool.true_and]
    congr 1
    omega
  · have : i - 30 < 2 := by omega
    simp only [this, decide_true, Bool.true_and]
    congr 1
    omega

/-- The operation field has four values. -/
theorem opField_cases (w : OpWord) :
    (opField w).toNat = 0 ∧ opField w = 0 ∨ (opField w).toNat = 1 ∧ opField w = 1 ∨
      (opField w).toNat = 2 ∧ opField w = 2 ∨ (opField w).toNat = 3 ∧ opField w = 3 := by
  have h : ∀ o : BitVec 2, o.toNat = 0 ∧ o = 0 ∨ o.toNat = 1 ∧ o = 1 ∨ o.toNat = 2 ∧ o = 2 ∨
      o.toNat = 3 ∧ o = 3 := by decide
  exact h _

/-! ## Encoded words -/

@[simp] theorem encodeWr_fields (addr : Addr) (wdata : Word) :
    wdataField (encodeWr addr wdata) = wdata ∧ addrField (encodeWr addr wdata) = addr ∧
      (encodeWr addr wdata).extractLsb' 24 6 = 0#6 ∧ opField (encodeWr addr wdata) = 2#2 := by
  refine ⟨?_, ?_, ?_, ?_⟩ <;>
    simp only [wdataField, addrField, opField, encodeWr]
  · rw [BitVec.extractLsb'_append_eq_of_add_le (by decide)]
    simp
  · rw [BitVec.extractLsb'_append_eq_of_le (by decide),
      BitVec.extractLsb'_append_eq_of_add_le (by decide)]
    simp
  · rw [BitVec.extractLsb'_append_eq_of_le (by decide),
      BitVec.extractLsb'_append_eq_of_le (by decide),
      BitVec.extractLsb'_append_eq_of_add_le (by decide)]
    decide
  · rw [BitVec.extractLsb'_append_eq_of_le (by decide),
      BitVec.extractLsb'_append_eq_of_le (by decide)]
    decide

/-- A WR word decodes by the WR column (30_encoding.md R84, R87). -/
@[simp] theorem decodeWord_encodeWr (addr : Addr) (wdata : Word) :
    decodeWord (encodeWr addr wdata) = .ok (decodeWr addr wdata) := by
  simp [decodeWord, reservedClear]

/-- A RD word decodes by the RD column (30_encoding.md R83, R87). -/
@[simp] theorem decodeWord_encodeRd (addr : Addr) :
    decodeWord (encodeRd addr) = .ok (decodeRd addr) := by
  have h1 : opField (encodeRd addr) = 1 := by
    revert addr
    decide +kernel
  have h2 : reservedClear (encodeRd addr) = true := by
    revert addr
    decide +kernel
  have h3 : addrField (encodeRd addr) = addr := by
    revert addr
    decide +kernel
  simp [decodeWord, h1, h2, h3]

/-! ## The two columns of the opcode map -/

/-- ADDR[0] does not choose the register (20_memory.md R63). -/
theorem regIndex_even (addr : Addr) : regIndex (addr &&& 0xFE) = regIndex addr := by
  revert addr
  decide +kernel

/-- The reserved offsets are those of the registers above the fourteenth (20_memory.md R67). -/
theorem reserved_iff (addr : Addr) : firstReserved ≤ addr ↔ 14 ≤ regIndex addr := by
  revert addr
  decide +kernel

theorem decodeRd_of_reserved {addr : Addr} (h : firstReserved ≤ addr) :
    decodeRd addr = .rdRsvd addr := by
  rw [reserved_iff] at h
  unfold decodeRd
  split <;> first | omega | rfl

theorem decodeWr_of_reserved {addr : Addr} (wdata : Word) (h : firstReserved ≤ addr) :
    decodeWr addr wdata = .wrRsvd addr wdata := by
  rw [reserved_iff] at h
  unfold decodeWr
  split <;> first | omega | rfl

/-- The RD column loses no bit of ADDR. -/
theorem encode_decodeRd (addr : Addr) :
    encode (decodeRd addr) = .op (encodeRd addr) ∧ WellFormed (decodeRd addr) := by
  revert addr
  decide +kernel

/-- The WR column loses no bit of ADDR or WDATA. -/
theorem encode_decodeWr (addr : Addr) (wdata : Word) :
    encode (decodeWr addr wdata) = .op (encodeWr addr wdata) ∧
      WellFormed (decodeWr addr wdata) := by
  have named : ∀ a : Addr, regIndex a < 14 →
      regAddr (BitVec.ofNat 7 (regIndex a)) (a.getLsbD 0) = a := by decide +kernel
  have rsvd := reserved_iff addr
  have named := named addr
  unfold decodeWr
  generalize regIndex addr = r at *
  generalize addr.getLsbD 0 = a0 at *
  by_cases hlt : r < 14
  · rw [← named hlt]
    have mem : r ∈ List.range 14 := List.mem_range.2 hlt
    clear named rsvd hlt
    revert mem
    simp only [show List.range 14 = [0, 1, 2, 3, 4, 5, 6, 7, 8, 9, 10, 11, 12, 13] from rfl,
      List.mem_cons, List.not_mem_nil, or_false]
    rintro (h | h | h | h | h | h | h | h | h | h | h | h | h | h) <;> subst h <;>
      exact ⟨rfl, rfl⟩
  · have h := rsvd.2 (by omega)
    split <;> first | omega | exact ⟨rfl, by simpa [WellFormed, Instr.wf] using h⟩

/-- An event code names an action, and is that action's code, or names none (30_encoding.md R89). -/
theorem decodeEvent_cases (c : EventCode) :
    decodeEvent c = .error .unknownEvent ∨
      ∃ i, decodeEvent c = .ok i ∧ WellFormed i ∧ i.isEvent = true ∧ encode i = .event c := by
  unfold decodeEvent
  split <;> first
    | exact .inl rfl
    | exact .inr ⟨_, rfl, rfl, rfl, congrArg Code.event (BitVec.eq_of_toNat_eq (Eq.symm ‹_›))⟩

/-- No operation word decodes to an internal action (30_encoding.md R89). -/
theorem decodeRd_isEvent (addr : Addr) : (decodeRd addr).isEvent = false := by
  unfold decodeRd
  split <;> rfl

theorem decodeWr_isEvent (addr : Addr) (wdata : Word) :
    (decodeWr addr wdata).isEvent = false := by
  unfold decodeWr
  split <;> rfl

end Sys2Proof
end

