-- ==== Sys2Proof/Laws/State.lean ====
section
/-! SUPPORT. What each update of the state leaves unchanged, one lemma an update; simp takes the
parts of a conjunction as rewrite rules of their own, one a field. -/

namespace Sys2Proof.Machine

/-- Sub-step 1 writes TCNT only. -/
@[simp] theorem advance_frame (b : Block) :
    (advance b).zcPhase = b.zcPhase ∧ (advance b).zcPrev = b.zcPrev ∧
    (advance b).fallT = b.fallT ∧ (advance b).riseT = b.riseT ∧ (advance b).zcCcr = b.zcCcr ∧
    (advance b).peak = b.peak ∧ (advance b).pkv = b.pkv ∧ (advance b).halfper = b.halfper ∧
    (advance b).lock = b.lock ∧ (advance b).zct = b.zct ∧ (advance b).tdelay = b.tdelay ∧
    (advance b).tcmp = b.tcmp ∧ (advance b).armed = b.armed ∧ (advance b).delayOff = b.delayOff ∧
    (advance b).gate = b.gate ∧ (advance b).goff = b.goff ∧ (advance b).dbMode = b.dbMode ∧
    (advance b).dbCnt = b.dbCnt ∧ (advance b).dbLast = b.dbLast ∧ (advance b).dbComm = b.dbComm ∧
    (advance b).dbv = b.dbv ∧ (advance b).dbchg = b.dbchg ∧ (advance b).dbMask = b.dbMask ∧
    (advance b).pins = b.pins ∧ (advance b).ctrl = b.ctrl ∧ (advance b).stTick = b.stTick ∧
    (advance b).stDbc = b.stDbc ∧ (advance b).stZupd = b.stZupd := by
  repeat' constructor

/-- Sub-step 3 writes PINS only. -/
@[simp] theorem samplePins_frame (pin : BitVec 3) (b : Block) :
    (samplePins pin b).tcnt = b.tcnt ∧ (samplePins pin b).zcPhase = b.zcPhase ∧
    (samplePins pin b).zcPrev = b.zcPrev ∧ (samplePins pin b).fallT = b.fallT ∧
    (samplePins pin b).riseT = b.riseT ∧ (samplePins pin b).zcCcr = b.zcCcr ∧
    (samplePins pin b).peak = b.peak ∧ (samplePins pin b).pkv = b.pkv ∧
    (samplePins pin b).halfper = b.halfper ∧ (samplePins pin b).lock = b.lock ∧
    (samplePins pin b).zct = b.zct ∧ (samplePins pin b).tdelay = b.tdelay ∧
    (samplePins pin b).tcmp = b.tcmp ∧ (samplePins pin b).armed = b.armed ∧
    (samplePins pin b).delayOff = b.delayOff ∧ (samplePins pin b).gate = b.gate ∧
    (samplePins pin b).goff = b.goff ∧ (samplePins pin b).dbMode = b.dbMode ∧
    (samplePins pin b).dbCnt = b.dbCnt ∧ (samplePins pin b).dbLast = b.dbLast ∧
    (samplePins pin b).dbComm = b.dbComm ∧ (samplePins pin b).dbv = b.dbv ∧
    (samplePins pin b).dbchg = b.dbchg ∧ (samplePins pin b).dbMask = b.dbMask ∧
    (samplePins pin b).ctrl = b.ctrl ∧ (samplePins pin b).stTick = b.stTick ∧
    (samplePins pin b).stDbc = b.stDbc ∧ (samplePins pin b).stZupd = b.stZupd := by
  repeat' constructor

/-- EV_GOFF writes GATE and GOFF only. -/
@[simp] theorem endPulse_frame (b : Block) :
    (endPulse b).tcnt = b.tcnt ∧ (endPulse b).zcPhase = b.zcPhase ∧
    (endPulse b).zcPrev = b.zcPrev ∧ (endPulse b).fallT = b.fallT ∧
    (endPulse b).riseT = b.riseT ∧ (endPulse b).zcCcr = b.zcCcr ∧ (endPulse b).peak = b.peak ∧
    (endPulse b).pkv = b.pkv ∧ (endPulse b).halfper = b.halfper ∧ (endPulse b).lock = b.lock ∧
    (endPulse b).zct = b.zct ∧ (endPulse b).tdelay = b.tdelay ∧ (endPulse b).tcmp = b.tcmp ∧
    (endPulse b).armed = b.armed ∧ (endPulse b).delayOff = b.delayOff ∧
    (endPulse b).dbMode = b.dbMode ∧ (endPulse b).dbCnt = b.dbCnt ∧
    (endPulse b).dbLast = b.dbLast ∧ (endPulse b).dbComm = b.dbComm ∧ (endPulse b).dbv = b.dbv ∧
    (endPulse b).dbchg = b.dbchg ∧ (endPulse b).dbMask = b.dbMask ∧ (endPulse b).pins = b.pins ∧
    (endPulse b).ctrl = b.ctrl ∧ (endPulse b).stTick = b.stTick ∧ (endPulse b).stDbc = b.stDbc ∧
    (endPulse b).stZupd = b.stZupd := by
  unfold endPulse
  split <;> repeat' constructor

/-- The normal action writes DELAYOFF, ZCT, TCMP and GOFF only. -/
@[simp] theorem normalAction_frame (b : Block) :
    (normalAction b).tcnt = b.tcnt ∧ (normalAction b).zcPhase = b.zcPhase ∧
    (normalAction b).zcPrev = b.zcPrev ∧ (normalAction b).fallT = b.fallT ∧
    (normalAction b).riseT = b.riseT ∧ (normalAction b).zcCcr = b.zcCcr ∧
    (normalAction b).peak = b.peak ∧ (normalAction b).pkv = b.pkv ∧
    (normalAction b).halfper = b.halfper ∧ (normalAction b).lock = b.lock ∧
    (normalAction b).tdelay = b.tdelay ∧ (normalAction b).armed = b.armed ∧
    (normalAction b).gate = b.gate ∧ (normalAction b).dbMode = b.dbMode ∧
    (normalAction b).dbCnt = b.dbCnt ∧ (normalAction b).dbLast = b.dbLast ∧
    (normalAction b).dbComm = b.dbComm ∧ (normalAction b).dbv = b.dbv ∧
    (normalAction b).dbchg = b.dbchg ∧ (normalAction b).dbMask = b.dbMask ∧
    (normalAction b).pins = b.pins ∧ (normalAction b).ctrl = b.ctrl ∧
    (normalAction b).stTick = b.stTick ∧ (normalAction b).stDbc = b.stDbc ∧
    (normalAction b).stZupd = b.stZupd := by
  repeat' constructor

/-- The retry action writes TCMP and DELAYOFF only. -/
@[simp] theorem retryAction_frame (p : Config.Params) (b : Block) :
    (retryAction p b).tcnt = b.tcnt ∧ (retryAction p b).zcPhase = b.zcPhase ∧
    (retryAction p b).zcPrev = b.zcPrev ∧ (retryAction p b).fallT = b.fallT ∧
    (retryAction p b).riseT = b.riseT ∧ (retryAction p b).zcCcr = b.zcCcr ∧
    (retryAction p b).peak = b.peak ∧ (retryAction p b).pkv = b.pkv ∧
    (retryAction p b).halfper = b.halfper ∧ (retryAction p b).lock = b.lock ∧
    (retryAction p b).zct = b.zct ∧ (retryAction p b).tdelay = b.tdelay ∧
    (retryAction p b).armed = b.armed ∧ (retryAction p b).gate = b.gate ∧
    (retryAction p b).goff = b.goff ∧ (retryAction p b).dbMode = b.dbMode ∧
    (retryAction p b).dbCnt = b.dbCnt ∧ (retryAction p b).dbLast = b.dbLast ∧
    (retryAction p b).dbComm = b.dbComm ∧ (retryAction p b).dbv = b.dbv ∧
    (retryAction p b).dbchg = b.dbchg ∧ (retryAction p b).dbMask = b.dbMask ∧
    (retryAction p b).pins = b.pins ∧ (retryAction p b).ctrl = b.ctrl ∧
    (retryAction p b).stTick = b.stTick ∧ (retryAction p b).stDbc = b.stDbc ∧
    (retryAction p b).stZupd = b.stZupd := by
  repeat' constructor

/-- The TRIAC channel writes its own elements and ZCT only. -/
@[simp] theorem triacChannel_frame (p : Config.Params) (b : Block) :
    (triacChannel p b).tcnt = b.tcnt ∧ (triacChannel p b).zcPhase = b.zcPhase ∧
    (triacChannel p b).zcPrev = b.zcPrev ∧ (triacChannel p b).fallT = b.fallT ∧
    (triacChannel p b).riseT = b.riseT ∧ (triacChannel p b).zcCcr = b.zcCcr ∧
    (triacChannel p b).peak = b.peak ∧ (triacChannel p b).pkv = b.pkv ∧
    (triacChannel p b).halfper = b.halfper ∧ (triacChannel p b).lock = b.lock ∧
    (triacChannel p b).tdelay = b.tdelay ∧ (triacChannel p b).armed = b.armed ∧
    (triacChannel p b).dbMode = b.dbMode ∧ (triacChannel p b).dbCnt = b.dbCnt ∧
    (triacChannel p b).dbLast = b.dbLast ∧ (triacChannel p b).dbComm = b.dbComm ∧
    (triacChannel p b).dbv = b.dbv ∧ (triacChannel p b).dbchg = b.dbchg ∧
    (triacChannel p b).dbMask = b.dbMask ∧ (triacChannel p b).pins = b.pins ∧
    (triacChannel p b).ctrl = b.ctrl ∧ (triacChannel p b).stTick = b.stTick ∧
    (triacChannel p b).stDbc = b.stDbc ∧ (triacChannel p b).stZupd = b.stZupd := by
  unfold triacChannel
  dsimp only
  split
  · split <;> repeat' constructor
  · repeat' constructor

/-- EV_FALL writes FALL_T, ZC_CCR and ZC_PHASE only. -/
@[simp] theorem captureFall_frame (p : Config.Params) (zc : Bool) (b : Block) :
    (captureFall p zc b).tcnt = b.tcnt ∧ (captureFall p zc b).zcPrev = b.zcPrev ∧
    (captureFall p zc b).riseT = b.riseT ∧ (captureFall p zc b).peak = b.peak ∧
    (captureFall p zc b).pkv = b.pkv ∧ (captureFall p zc b).halfper = b.halfper ∧
    (captureFall p zc b).lock = b.lock ∧ (captureFall p zc b).zct = b.zct ∧
    (captureFall p zc b).tdelay = b.tdelay ∧ (captureFall p zc b).tcmp = b.tcmp ∧
    (captureFall p zc b).armed = b.armed ∧ (captureFall p zc b).delayOff = b.delayOff ∧
    (captureFall p zc b).gate = b.gate ∧ (captureFall p zc b).goff = b.goff ∧
    (captureFall p zc b).dbMode = b.dbMode ∧ (captureFall p zc b).dbCnt = b.dbCnt ∧
    (captureFall p zc b).dbLast = b.dbLast ∧ (captureFall p zc b).dbComm = b.dbComm ∧
    (captureFall p zc b).dbv = b.dbv ∧ (captureFall p zc b).dbchg = b.dbchg ∧
    (captureFall p zc b).dbMask = b.dbMask ∧ (captureFall p zc b).pins = b.pins ∧
    (captureFall p zc b).ctrl = b.ctrl ∧ (captureFall p zc b).stTick = b.stTick ∧
    (captureFall p zc b).stDbc = b.stDbc ∧ (captureFall p zc b).stZupd = b.stZupd := by
  unfold captureFall
  split <;> repeat' constructor

/-- EV_FDEB writes ZC_PHASE only. -/
@[simp] theorem expireFall_frame (b : Block) :
    (expireFall b).tcnt = b.tcnt ∧ (expireFall b).zcPrev = b.zcPrev ∧
    (expireFall b).fallT = b.fallT ∧ (expireFall b).riseT = b.riseT ∧
    (expireFall b).zcCcr = b.zcCcr ∧ (expireFall b).peak = b.peak ∧ (expireFall b).pkv = b.pkv ∧
    (expireFall b).halfper = b.halfper ∧ (expireFall b).lock = b.lock ∧
    (expireFall b).zct = b.zct ∧ (expireFall b).tdelay = b.tdelay ∧
    (expireFall b).tcmp = b.tcmp ∧ (expireFall b).armed = b.armed ∧
    (expireFall b).delayOff = b.delayOff ∧ (expireFall b).gate = b.gate ∧
    (expireFall b).goff = b.goff ∧ (expireFall b).dbMode = b.dbMode ∧
    (expireFall b).dbCnt = b.dbCnt ∧ (expireFall b).dbLast = b.dbLast ∧
    (expireFall b).dbComm = b.dbComm ∧ (expireFall b).dbv = b.dbv ∧
    (expireFall b).dbchg = b.dbchg ∧ (expireFall b).dbMask = b.dbMask ∧
    (expireFall b).pins = b.pins ∧ (expireFall b).ctrl = b.ctrl ∧
    (expireFall b).stTick = b.stTick ∧ (expireFall b).stDbc = b.stDbc ∧
    (expireFall b).stZupd = b.stZupd := by
  unfold expireFall
  split <;> repeat' constructor

/-- EV_RISE writes RISE_T, ZC_CCR and ZC_PHASE only. -/
@[simp] theorem captureRise_frame (p : Config.Params) (zc : Bool) (b : Block) :
    (captureRise p zc b).tcnt = b.tcnt ∧ (captureRise p zc b).zcPrev = b.zcPrev ∧
    (captureRise p zc b).fallT = b.fallT ∧ (captureRise p zc b).peak = b.peak ∧
    (captureRise p zc b).pkv = b.pkv ∧ (captureRise p zc b).halfper = b.halfper ∧
    (captureRise p zc b).lock = b.lock ∧ (captureRise p zc b).zct = b.zct ∧
    (captureRise p zc b).tdelay = b.tdelay ∧ (captureRise p zc b).tcmp = b.tcmp ∧
    (captureRise p zc b).armed = b.armed ∧ (captureRise p zc b).delayOff = b.delayOff ∧
    (captureRise p zc b).gate = b.gate ∧ (captureRise p zc b).goff = b.goff ∧
    (captureRise p zc b).dbMode = b.dbMode ∧ (captureRise p zc b).dbCnt = b.dbCnt ∧
    (captureRise p zc b).dbLast = b.dbLast ∧ (captureRise p zc b).dbComm = b.dbComm ∧
    (captureRise p zc b).dbv = b.dbv ∧ (captureRise p zc b).dbchg = b.dbchg ∧
    (captureRise p zc b).dbMask = b.dbMask ∧ (captureRise p zc b).pins = b.pins ∧
    (captureRise p zc b).ctrl = b.ctrl ∧ (captureRise p zc b).stTick = b.stTick ∧
    (captureRise p zc b).stDbc = b.stDbc ∧ (captureRise p zc b).stZupd = b.stZupd := by
  unfold captureRise
  split <;> repeat' constructor

/-- EV_FIRST writes PEAK and PKV only. -/
@[simp] theorem firstPeak_frame (b : Block) :
    (firstPeak b).tcnt = b.tcnt ∧ (firstPeak b).zcPhase = b.zcPhase ∧
    (firstPeak b).zcPrev = b.zcPrev ∧ (firstPeak b).fallT = b.fallT ∧
    (firstPeak b).riseT = b.riseT ∧ (firstPeak b).zcCcr = b.zcCcr ∧
    (firstPeak b).halfper = b.halfper ∧ (firstPeak b).lock = b.lock ∧ (firstPeak b).zct = b.zct ∧
    (firstPeak b).tdelay = b.tdelay ∧ (firstPeak b).tcmp = b.tcmp ∧
    (firstPeak b).armed = b.armed ∧ (firstPeak b).delayOff = b.delayOff ∧
    (firstPeak b).gate = b.gate ∧ (firstPeak b).goff = b.goff ∧ (firstPeak b).dbMode = b.dbMode ∧
    (firstPeak b).dbCnt = b.dbCnt ∧ (firstPeak b).dbLast = b.dbLast ∧
    (firstPeak b).dbComm = b.dbComm ∧ (firstPeak b).dbv = b.dbv ∧ (firstPeak b).dbchg = b.dbchg ∧
    (firstPeak b).dbMask = b.dbMask ∧ (firstPeak b).pins = b.pins ∧ (firstPeak b).ctrl = b.ctrl ∧
    (firstPeak b).stTick = b.stTick ∧ (firstPeak b).stDbc = b.stDbc ∧
    (firstPeak b).stZupd = b.stZupd := by
  repeat' constructor

/-- EV_MEASURE writes HALFPER, PEAK and LOCK only. -/
@[simp] theorem measurePeriod_frame (b : Block) :
    (measurePeriod b).tcnt = b.tcnt ∧ (measurePeriod b).zcPhase = b.zcPhase ∧ (measurePeriod b).zcPrev = b.zcPrev ∧
    (measurePeriod b).fallT = b.fallT ∧ (measurePeriod b).riseT = b.riseT ∧ (measurePeriod b).zcCcr = b.zcCcr ∧
    (measurePeriod b).pkv = b.pkv ∧ (measurePeriod b).zct = b.zct ∧ (measurePeriod b).tdelay = b.tdelay ∧
    (measurePeriod b).tcmp = b.tcmp ∧ (measurePeriod b).armed = b.armed ∧ (measurePeriod b).delayOff = b.delayOff ∧
    (measurePeriod b).gate = b.gate ∧ (measurePeriod b).goff = b.goff ∧ (measurePeriod b).dbMode = b.dbMode ∧
    (measurePeriod b).dbCnt = b.dbCnt ∧ (measurePeriod b).dbLast = b.dbLast ∧ (measurePeriod b).dbComm = b.dbComm ∧
    (measurePeriod b).dbv = b.dbv ∧ (measurePeriod b).dbchg = b.dbchg ∧ (measurePeriod b).dbMask = b.dbMask ∧
    (measurePeriod b).pins = b.pins ∧ (measurePeriod b).ctrl = b.ctrl ∧ (measurePeriod b).stTick = b.stTick ∧
    (measurePeriod b).stDbc = b.stDbc ∧ (measurePeriod b).stZupd = b.stZupd := by
  repeat' constructor

/-- EV_ARM writes TCMP, ARMED, DELAYOFF and GOFF only. -/
@[simp] theorem arm_frame (b : Block) :
    (arm b).tcnt = b.tcnt ∧ (arm b).zcPhase = b.zcPhase ∧ (arm b).zcPrev = b.zcPrev ∧
    (arm b).fallT = b.fallT ∧ (arm b).riseT = b.riseT ∧ (arm b).zcCcr = b.zcCcr ∧
    (arm b).peak = b.peak ∧ (arm b).pkv = b.pkv ∧ (arm b).halfper = b.halfper ∧
    (arm b).lock = b.lock ∧ (arm b).zct = b.zct ∧ (arm b).tdelay = b.tdelay ∧
    (arm b).gate = b.gate ∧ (arm b).dbMode = b.dbMode ∧ (arm b).dbCnt = b.dbCnt ∧
    (arm b).dbLast = b.dbLast ∧ (arm b).dbComm = b.dbComm ∧ (arm b).dbv = b.dbv ∧
    (arm b).dbchg = b.dbchg ∧ (arm b).dbMask = b.dbMask ∧ (arm b).pins = b.pins ∧
    (arm b).ctrl = b.ctrl ∧ (arm b).stTick = b.stTick ∧ (arm b).stDbc = b.stDbc ∧
    (arm b).stZupd = b.stZupd := by
  unfold arm
  split <;> repeat' constructor

/-- EV_RESYNC writes ZCT, ZUPD and what arming writes. -/
@[simp] theorem resync_frame (b : Block) :
    (resync b).tcnt = b.tcnt ∧ (resync b).zcPhase = b.zcPhase ∧ (resync b).zcPrev = b.zcPrev ∧
    (resync b).fallT = b.fallT ∧ (resync b).riseT = b.riseT ∧ (resync b).zcCcr = b.zcCcr ∧
    (resync b).peak = b.peak ∧ (resync b).pkv = b.pkv ∧ (resync b).halfper = b.halfper ∧
    (resync b).lock = b.lock ∧ (resync b).tdelay = b.tdelay ∧ (resync b).gate = b.gate ∧
    (resync b).dbMode = b.dbMode ∧ (resync b).dbCnt = b.dbCnt ∧ (resync b).dbLast = b.dbLast ∧
    (resync b).dbComm = b.dbComm ∧ (resync b).dbv = b.dbv ∧ (resync b).dbchg = b.dbchg ∧
    (resync b).dbMask = b.dbMask ∧ (resync b).pins = b.pins ∧ (resync b).ctrl = b.ctrl ∧
    (resync b).stTick = b.stTick ∧ (resync b).stDbc = b.stDbc := by
  unfold resync
  split <;> simp

/-- The computation of a periodic tick writes neither the captures nor the filter. -/
@[simp] theorem periodicCompute_frame (b : Block) :
    (periodicCompute b).tcnt = b.tcnt ∧ (periodicCompute b).zcPhase = b.zcPhase ∧
    (periodicCompute b).zcPrev = b.zcPrev ∧ (periodicCompute b).fallT = b.fallT ∧
    (periodicCompute b).riseT = b.riseT ∧ (periodicCompute b).zcCcr = b.zcCcr ∧
    (periodicCompute b).tdelay = b.tdelay ∧ (periodicCompute b).gate = b.gate ∧
    (periodicCompute b).dbMode = b.dbMode ∧ (periodicCompute b).dbCnt = b.dbCnt ∧
    (periodicCompute b).dbLast = b.dbLast ∧ (periodicCompute b).dbComm = b.dbComm ∧
    (periodicCompute b).dbv = b.dbv ∧ (periodicCompute b).dbchg = b.dbchg ∧
    (periodicCompute b).dbMask = b.dbMask ∧ (periodicCompute b).pins = b.pins ∧
    (periodicCompute b).ctrl = b.ctrl ∧ (periodicCompute b).stTick = b.stTick ∧
    (periodicCompute b).stDbc = b.stDbc := by
  unfold periodicCompute
  split <;> simp

/-- EV_DBSTEP writes DB_LAST, DB_CNT and DB_MODE only. -/
@[simp] theorem debounceStep_frame (p : Config.Params) (b : Block) :
    (debounceStep p b).tcnt = b.tcnt ∧ (debounceStep p b).zcPhase = b.zcPhase ∧
    (debounceStep p b).zcPrev = b.zcPrev ∧ (debounceStep p b).fallT = b.fallT ∧
    (debounceStep p b).riseT = b.riseT ∧ (debounceStep p b).zcCcr = b.zcCcr ∧
    (debounceStep p b).peak = b.peak ∧ (debounceStep p b).pkv = b.pkv ∧
    (debounceStep p b).halfper = b.halfper ∧ (debounceStep p b).lock = b.lock ∧
    (debounceStep p b).zct = b.zct ∧ (debounceStep p b).tdelay = b.tdelay ∧
    (debounceStep p b).tcmp = b.tcmp ∧ (debounceStep p b).armed = b.armed ∧
    (debounceStep p b).delayOff = b.delayOff ∧ (debounceStep p b).gate = b.gate ∧
    (debounceStep p b).goff = b.goff ∧ (debounceStep p b).dbComm = b.dbComm ∧
    (debounceStep p b).dbv = b.dbv ∧ (debounceStep p b).dbchg = b.dbchg ∧
    (debounceStep p b).dbMask = b.dbMask ∧ (debounceStep p b).pins = b.pins ∧
    (debounceStep p b).ctrl = b.ctrl ∧ (debounceStep p b).stTick = b.stTick ∧
    (debounceStep p b).stDbc = b.stDbc ∧ (debounceStep p b).stZupd = b.stZupd := by
  unfold debounceStep
  split <;> repeat' constructor

/-- A periodic tick writes neither the captures nor what a commit shows. -/
@[simp] theorem periodicTick_frame (p : Config.Params) (mode0 : DbMode) (b : Block) :
    (periodicTick p mode0 b).tcnt = b.tcnt ∧ (periodicTick p mode0 b).zcPhase = b.zcPhase ∧
    (periodicTick p mode0 b).zcPrev = b.zcPrev ∧ (periodicTick p mode0 b).fallT = b.fallT ∧
    (periodicTick p mode0 b).riseT = b.riseT ∧ (periodicTick p mode0 b).zcCcr = b.zcCcr ∧
    (periodicTick p mode0 b).tdelay = b.tdelay ∧ (periodicTick p mode0 b).gate = b.gate ∧
    (periodicTick p mode0 b).dbComm = b.dbComm ∧ (periodicTick p mode0 b).dbv = b.dbv ∧
    (periodicTick p mode0 b).dbchg = b.dbchg ∧ (periodicTick p mode0 b).dbMask = b.dbMask ∧
    (periodicTick p mode0 b).pins = b.pins ∧ (periodicTick p mode0 b).ctrl = b.ctrl ∧
    (periodicTick p mode0 b).stDbc = b.stDbc := by
  unfold periodicTick
  dsimp only
  split <;> simp

/-- EV_PTICK writes the phase and what a periodic tick writes. -/
@[simp] theorem expireRise_frame (p : Config.Params) (mode0 : DbMode) (b : Block) :
    (expireRise p mode0 b).tcnt = b.tcnt ∧ (expireRise p mode0 b).zcPrev = b.zcPrev ∧
    (expireRise p mode0 b).fallT = b.fallT ∧ (expireRise p mode0 b).riseT = b.riseT ∧
    (expireRise p mode0 b).zcCcr = b.zcCcr ∧ (expireRise p mode0 b).tdelay = b.tdelay ∧
    (expireRise p mode0 b).gate = b.gate ∧ (expireRise p mode0 b).dbComm = b.dbComm ∧
    (expireRise p mode0 b).dbv = b.dbv ∧ (expireRise p mode0 b).dbchg = b.dbchg ∧
    (expireRise p mode0 b).dbMask = b.dbMask ∧ (expireRise p mode0 b).pins = b.pins ∧
    (expireRise p mode0 b).ctrl = b.ctrl ∧ (expireRise p mode0 b).stDbc = b.stDbc := by
  unfold expireRise
  split <;> simp

/-- The zero-crossing channel never writes the counter, the pins, the gate, the host's registers or
what a commit shows. -/
@[simp] theorem zcChannel_frame (p : Config.Params) (zc : Bool) (mode0 : DbMode) (b : Block) :
    (zcChannel p zc mode0 b).tcnt = b.tcnt ∧ (zcChannel p zc mode0 b).tdelay = b.tdelay ∧
    (zcChannel p zc mode0 b).gate = b.gate ∧ (zcChannel p zc mode0 b).dbComm = b.dbComm ∧
    (zcChannel p zc mode0 b).dbv = b.dbv ∧ (zcChannel p zc mode0 b).dbchg = b.dbchg ∧
    (zcChannel p zc mode0 b).dbMask = b.dbMask ∧ (zcChannel p zc mode0 b).pins = b.pins ∧
    (zcChannel p zc mode0 b).ctrl = b.ctrl ∧ (zcChannel p zc mode0 b).stDbc = b.stDbc := by
  unfold zcChannel zcAction
  dsimp only
  split <;> simp

/-- A restart of the count writes DB_LAST, DB_CNT and DB_MODE only. -/
@[simp] theorem restartCount_frame (p : Config.Params) (v : BitVec 3) (b : Block) :
    (restartCount p v b).tcnt = b.tcnt ∧ (restartCount p v b).zcPhase = b.zcPhase ∧
    (restartCount p v b).zcPrev = b.zcPrev ∧ (restartCount p v b).fallT = b.fallT ∧
    (restartCount p v b).riseT = b.riseT ∧ (restartCount p v b).zcCcr = b.zcCcr ∧
    (restartCount p v b).peak = b.peak ∧ (restartCount p v b).pkv = b.pkv ∧
    (restartCount p v b).halfper = b.halfper ∧ (restartCount p v b).lock = b.lock ∧
    (restartCount p v b).zct = b.zct ∧ (restartCount p v b).tdelay = b.tdelay ∧
    (restartCount p v b).tcmp = b.tcmp ∧ (restartCount p v b).armed = b.armed ∧
    (restartCount p v b).delayOff = b.delayOff ∧ (restartCount p v b).gate = b.gate ∧
    (restartCount p v b).goff = b.goff ∧ (restartCount p v b).dbComm = b.dbComm ∧
    (restartCount p v b).dbv = b.dbv ∧ (restartCount p v b).dbchg = b.dbchg ∧
    (restartCount p v b).dbMask = b.dbMask ∧ (restartCount p v b).pins = b.pins ∧
    (restartCount p v b).ctrl = b.ctrl ∧ (restartCount p v b).stTick = b.stTick ∧
    (restartCount p v b).stDbc = b.stDbc ∧ (restartCount p v b).stZupd = b.stZupd := by
  repeat' constructor

/-- EV_COMMIT writes what a commit shows and DB_MODE. -/
@[simp] theorem commit_frame (mode0 : DbMode) (b : Block) :
    (commit mode0 b).tcnt = b.tcnt ∧ (commit mode0 b).zcPhase = b.zcPhase ∧
    (commit mode0 b).zcPrev = b.zcPrev ∧ (commit mode0 b).fallT = b.fallT ∧
    (commit mode0 b).riseT = b.riseT ∧ (commit mode0 b).zcCcr = b.zcCcr ∧
    (commit mode0 b).peak = b.peak ∧ (commit mode0 b).pkv = b.pkv ∧
    (commit mode0 b).halfper = b.halfper ∧ (commit mode0 b).lock = b.lock ∧
    (commit mode0 b).zct = b.zct ∧ (commit mode0 b).tdelay = b.tdelay ∧
    (commit mode0 b).tcmp = b.tcmp ∧ (commit mode0 b).armed = b.armed ∧
    (commit mode0 b).delayOff = b.delayOff ∧ (commit mode0 b).gate = b.gate ∧
    (commit mode0 b).goff = b.goff ∧ (commit mode0 b).dbCnt = b.dbCnt ∧
    (commit mode0 b).dbLast = b.dbLast ∧ (commit mode0 b).dbMask = b.dbMask ∧
    (commit mode0 b).pins = b.pins ∧ (commit mode0 b).ctrl = b.ctrl ∧
    (commit mode0 b).stTick = b.stTick ∧ (commit mode0 b).stZupd = b.stZupd := by
  unfold commit
  split <;> repeat' constructor

/-- EV_ABORT writes DB_LAST, DB_CNT and DB_MODE only. -/
@[simp] theorem abort_frame (p : Config.Params) (mode0 : DbMode) (b : Block) :
    (abort p mode0 b).tcnt = b.tcnt ∧ (abort p mode0 b).zcPhase = b.zcPhase ∧
    (abort p mode0 b).zcPrev = b.zcPrev ∧ (abort p mode0 b).fallT = b.fallT ∧
    (abort p mode0 b).riseT = b.riseT ∧ (abort p mode0 b).zcCcr = b.zcCcr ∧
    (abort p mode0 b).peak = b.peak ∧ (abort p mode0 b).pkv = b.pkv ∧
    (abort p mode0 b).halfper = b.halfper ∧ (abort p mode0 b).lock = b.lock ∧
    (abort p mode0 b).zct = b.zct ∧ (abort p mode0 b).tdelay = b.tdelay ∧
    (abort p mode0 b).tcmp = b.tcmp ∧ (abort p mode0 b).armed = b.armed ∧
    (abort p mode0 b).delayOff = b.delayOff ∧ (abort p mode0 b).gate = b.gate ∧
    (abort p mode0 b).goff = b.goff ∧ (abort p mode0 b).dbComm = b.dbComm ∧
    (abort p mode0 b).dbv = b.dbv ∧ (abort p mode0 b).dbchg = b.dbchg ∧
    (abort p mode0 b).dbMask = b.dbMask ∧ (abort p mode0 b).pins = b.pins ∧
    (abort p mode0 b).ctrl = b.ctrl ∧ (abort p mode0 b).stTick = b.stTick ∧
    (abort p mode0 b).stDbc = b.stDbc ∧ (abort p mode0 b).stZupd = b.stZupd := by
  unfold abort
  split <;> repeat' constructor

/-- EV_DETECT writes DB_LAST, DB_CNT and DB_MODE only. -/
@[simp] theorem detect_frame (p : Config.Params) (mode0 : DbMode) (b : Block) :
    (detect p mode0 b).tcnt = b.tcnt ∧ (detect p mode0 b).zcPhase = b.zcPhase ∧
    (detect p mode0 b).zcPrev = b.zcPrev ∧ (detect p mode0 b).fallT = b.fallT ∧
    (detect p mode0 b).riseT = b.riseT ∧ (detect p mode0 b).zcCcr = b.zcCcr ∧
    (detect p mode0 b).peak = b.peak ∧ (detect p mode0 b).pkv = b.pkv ∧
    (detect p mode0 b).halfper = b.halfper ∧ (detect p mode0 b).lock = b.lock ∧
    (detect p mode0 b).zct = b.zct ∧ (detect p mode0 b).tdelay = b.tdelay ∧
    (detect p mode0 b).tcmp = b.tcmp ∧ (detect p mode0 b).armed = b.armed ∧
    (detect p mode0 b).delayOff = b.delayOff ∧ (detect p mode0 b).gate = b.gate ∧
    (detect p mode0 b).goff = b.goff ∧ (detect p mode0 b).dbComm = b.dbComm ∧
    (detect p mode0 b).dbv = b.dbv ∧ (detect p mode0 b).dbchg = b.dbchg ∧
    (detect p mode0 b).dbMask = b.dbMask ∧ (detect p mode0 b).pins = b.pins ∧
    (detect p mode0 b).ctrl = b.ctrl ∧ (detect p mode0 b).stTick = b.stTick ∧
    (detect p mode0 b).stDbc = b.stDbc ∧ (detect p mode0 b).stZupd = b.stZupd := by
  unfold detect
  split <;> repeat' constructor

/-- The debounce tail writes the filter only. -/
@[simp] theorem debounceTail_frame (p : Config.Params) (mode0 : DbMode) (b : Block) :
    (debounceTail p mode0 b).tcnt = b.tcnt ∧ (debounceTail p mode0 b).zcPhase = b.zcPhase ∧
    (debounceTail p mode0 b).zcPrev = b.zcPrev ∧ (debounceTail p mode0 b).fallT = b.fallT ∧
    (debounceTail p mode0 b).riseT = b.riseT ∧ (debounceTail p mode0 b).zcCcr = b.zcCcr ∧
    (debounceTail p mode0 b).peak = b.peak ∧ (debounceTail p mode0 b).pkv = b.pkv ∧
    (debounceTail p mode0 b).halfper = b.halfper ∧ (debounceTail p mode0 b).lock = b.lock ∧
    (debounceTail p mode0 b).zct = b.zct ∧ (debounceTail p mode0 b).tdelay = b.tdelay ∧
    (debounceTail p mode0 b).tcmp = b.tcmp ∧ (debounceTail p mode0 b).armed = b.armed ∧
    (debounceTail p mode0 b).delayOff = b.delayOff ∧ (debounceTail p mode0 b).gate = b.gate ∧
    (debounceTail p mode0 b).goff = b.goff ∧ (debounceTail p mode0 b).dbMask = b.dbMask ∧
    (debounceTail p mode0 b).pins = b.pins ∧ (debounceTail p mode0 b).ctrl = b.ctrl ∧
    (debounceTail p mode0 b).stTick = b.stTick ∧ (debounceTail p mode0 b).stZupd = b.stZupd := by
  unfold debounceTail
  cases mode0 <;> dsimp only
  · simp
  · repeat' constructor
  · split <;> simp

/-- WR_CTRL writes CTRL only. -/
@[simp] theorem setCtrl_frame (d : Word) (b : Block) :
    (setCtrl d b).tcnt = b.tcnt ∧ (setCtrl d b).zcPhase = b.zcPhase ∧
    (setCtrl d b).zcPrev = b.zcPrev ∧ (setCtrl d b).fallT = b.fallT ∧
    (setCtrl d b).riseT = b.riseT ∧ (setCtrl d b).zcCcr = b.zcCcr ∧ (setCtrl d b).peak = b.peak ∧
    (setCtrl d b).pkv = b.pkv ∧ (setCtrl d b).halfper = b.halfper ∧ (setCtrl d b).lock = b.lock ∧
    (setCtrl d b).zct = b.zct ∧ (setCtrl d b).tdelay = b.tdelay ∧ (setCtrl d b).tcmp = b.tcmp ∧
    (setCtrl d b).armed = b.armed ∧ (setCtrl d b).delayOff = b.delayOff ∧
    (setCtrl d b).gate = b.gate ∧ (setCtrl d b).goff = b.goff ∧ (setCtrl d b).dbMode = b.dbMode ∧
    (setCtrl d b).dbCnt = b.dbCnt ∧ (setCtrl d b).dbLast = b.dbLast ∧
    (setCtrl d b).dbComm = b.dbComm ∧ (setCtrl d b).dbv = b.dbv ∧ (setCtrl d b).dbchg = b.dbchg ∧
    (setCtrl d b).dbMask = b.dbMask ∧ (setCtrl d b).pins = b.pins ∧
    (setCtrl d b).stTick = b.stTick ∧ (setCtrl d b).stDbc = b.stDbc ∧
    (setCtrl d b).stZupd = b.stZupd := by
  repeat' constructor

/-- WR_STATUS writes the three event bits only. -/
@[simp] theorem clearEvents_frame (d : Word) (b : Block) :
    (b.clearEvents d).tcnt = b.tcnt ∧ (b.clearEvents d).zcPhase = b.zcPhase ∧
    (b.clearEvents d).zcPrev = b.zcPrev ∧ (b.clearEvents d).fallT = b.fallT ∧
    (b.clearEvents d).riseT = b.riseT ∧ (b.clearEvents d).zcCcr = b.zcCcr ∧
    (b.clearEvents d).peak = b.peak ∧ (b.clearEvents d).pkv = b.pkv ∧
    (b.clearEvents d).halfper = b.halfper ∧ (b.clearEvents d).lock = b.lock ∧
    (b.clearEvents d).zct = b.zct ∧ (b.clearEvents d).tdelay = b.tdelay ∧
    (b.clearEvents d).tcmp = b.tcmp ∧ (b.clearEvents d).armed = b.armed ∧
    (b.clearEvents d).delayOff = b.delayOff ∧ (b.clearEvents d).gate = b.gate ∧
    (b.clearEvents d).goff = b.goff ∧ (b.clearEvents d).dbMode = b.dbMode ∧
    (b.clearEvents d).dbCnt = b.dbCnt ∧ (b.clearEvents d).dbLast = b.dbLast ∧
    (b.clearEvents d).dbComm = b.dbComm ∧ (b.clearEvents d).dbv = b.dbv ∧
    (b.clearEvents d).dbchg = b.dbchg ∧ (b.clearEvents d).dbMask = b.dbMask ∧
    (b.clearEvents d).pins = b.pins ∧ (b.clearEvents d).ctrl = b.ctrl := by
  repeat' constructor

/-- WR_TDELAY writes TDELAY, and on a write of 0 the driver's bits. -/
@[simp] theorem setTdelay_frame (d : Word) (b : Block) :
    (setTdelay d b).tcnt = b.tcnt ∧ (setTdelay d b).zcPhase = b.zcPhase ∧
    (setTdelay d b).zcPrev = b.zcPrev ∧ (setTdelay d b).fallT = b.fallT ∧
    (setTdelay d b).riseT = b.riseT ∧ (setTdelay d b).zcCcr = b.zcCcr ∧
    (setTdelay d b).peak = b.peak ∧ (setTdelay d b).pkv = b.pkv ∧
    (setTdelay d b).halfper = b.halfper ∧ (setTdelay d b).lock = b.lock ∧
    (setTdelay d b).zct = b.zct ∧ (setTdelay d b).tcmp = b.tcmp ∧
    (setTdelay d b).dbMode = b.dbMode ∧ (setTdelay d b).dbCnt = b.dbCnt ∧
    (setTdelay d b).dbLast = b.dbLast ∧ (setTdelay d b).dbComm = b.dbComm ∧
    (setTdelay d b).dbv = b.dbv ∧ (setTdelay d b).dbchg = b.dbchg ∧
    (setTdelay d b).dbMask = b.dbMask ∧ (setTdelay d b).pins = b.pins ∧
    (setTdelay d b).ctrl = b.ctrl ∧ (setTdelay d b).stTick = b.stTick ∧
    (setTdelay d b).stDbc = b.stDbc ∧ (setTdelay d b).stZupd = b.stZupd := by
  unfold setTdelay disableDriver
  dsimp only
  split <;> repeat' constructor

/-- WR_DBMASK writes DB_MASK, DB_COMM and DB_LAST only. -/
@[simp] theorem setDbmask_frame (d : Word) (b : Block) :
    (setDbmask d b).tcnt = b.tcnt ∧ (setDbmask d b).zcPhase = b.zcPhase ∧
    (setDbmask d b).zcPrev = b.zcPrev ∧ (setDbmask d b).fallT = b.fallT ∧
    (setDbmask d b).riseT = b.riseT ∧ (setDbmask d b).zcCcr = b.zcCcr ∧
    (setDbmask d b).peak = b.peak ∧ (setDbmask d b).pkv = b.pkv ∧
    (setDbmask d b).halfper = b.halfper ∧ (setDbmask d b).lock = b.lock ∧
    (setDbmask d b).zct = b.zct ∧ (setDbmask d b).tdelay = b.tdelay ∧
    (setDbmask d b).tcmp = b.tcmp ∧ (setDbmask d b).armed = b.armed ∧
    (setDbmask d b).delayOff = b.delayOff ∧ (setDbmask d b).gate = b.gate ∧
    (setDbmask d b).goff = b.goff ∧ (setDbmask d b).dbMode = b.dbMode ∧
    (setDbmask d b).dbCnt = b.dbCnt ∧ (setDbmask d b).dbv = b.dbv ∧
    (setDbmask d b).dbchg = b.dbchg ∧ (setDbmask d b).pins = b.pins ∧
    (setDbmask d b).ctrl = b.ctrl ∧ (setDbmask d b).stTick = b.stTick ∧
    (setDbmask d b).stDbc = b.stDbc ∧ (setDbmask d b).stZupd = b.stZupd := by
  repeat' constructor

/-- An ignored write writes nothing. -/
@[simp] theorem ignoreWrite_frame (b : Block) :
    (ignoreWrite b).tcnt = b.tcnt ∧ (ignoreWrite b).zcPhase = b.zcPhase ∧
    (ignoreWrite b).zcPrev = b.zcPrev ∧ (ignoreWrite b).fallT = b.fallT ∧
    (ignoreWrite b).riseT = b.riseT ∧ (ignoreWrite b).zcCcr = b.zcCcr ∧
    (ignoreWrite b).peak = b.peak ∧ (ignoreWrite b).pkv = b.pkv ∧
    (ignoreWrite b).halfper = b.halfper ∧ (ignoreWrite b).lock = b.lock ∧
    (ignoreWrite b).zct = b.zct ∧ (ignoreWrite b).tdelay = b.tdelay ∧
    (ignoreWrite b).tcmp = b.tcmp ∧ (ignoreWrite b).armed = b.armed ∧
    (ignoreWrite b).delayOff = b.delayOff ∧ (ignoreWrite b).gate = b.gate ∧
    (ignoreWrite b).goff = b.goff ∧ (ignoreWrite b).dbMode = b.dbMode ∧
    (ignoreWrite b).dbCnt = b.dbCnt ∧ (ignoreWrite b).dbLast = b.dbLast ∧
    (ignoreWrite b).dbComm = b.dbComm ∧ (ignoreWrite b).dbv = b.dbv ∧
    (ignoreWrite b).dbchg = b.dbchg ∧ (ignoreWrite b).dbMask = b.dbMask ∧
    (ignoreWrite b).pins = b.pins ∧ (ignoreWrite b).ctrl = b.ctrl ∧
    (ignoreWrite b).stTick = b.stTick ∧ (ignoreWrite b).stDbc = b.stDbc ∧
    (ignoreWrite b).stZupd = b.stZupd := by
  repeat' constructor

end Sys2Proof.Machine
end

