-- ==== Sys2Proof/Laws/Ops.lean ====
section
/-! SUPPORT. What each shared operation and each sub-step of a tick does, said once, for proofs to cite
instead of unfolding it. -/

namespace Sys2Proof.Machine

/-! ## Outcomes -/

@[simp] theorem visible_of_rst_low {s : State} (h : s.rst = false) : s.visible = s.blk := by
  simp [State.visible, h]

@[simp] theorem visible_of_rst_high {s : State} (h : s.rst = true) :
    s.visible = Block.reset := by
  simp [State.visible, h]

/-- A TICK with RST low is `tick` on the block. -/
theorem exec_tick {s : State} (h : s.rst = false) (pin : BitVec 3) (zc : Bool) :
    exec (.tick pin zc) s =
      .next { s with blk := tick Config.params pin zc s.blk, rdata := none } := by
  simp [exec, execTick, clockTick, h]

/-- A host write with RST low is its effect on the block. -/
theorem hostWrite_of_rst_low {s : State} (h : s.rst = false) (f : Block → Block) :
    hostWrite f s = .next { s with blk := f s.blk, rdata := none } := by
  simp [hostWrite, h]

/-- An internal action with RST low is its effect on the block. -/
theorem internalAction_of_rst_low {s : State} (h : s.rst = false) (f : Block → Block) :
    internalAction f s = .next { s with blk := f s.blk, rdata := none } := by
  simp [internalAction, h]

/-! ## Sub-steps 1 to 3 -/

@[simp] theorem advance_tcnt (b : Block) : (advance b).tcnt = b.tcnt + 1 := rfl

@[simp] theorem samplePins_pins (pin : BitVec 3) (b : Block) :
    (samplePins pin b).pins = pin := rfl

@[simp] theorem endPulse_gate (b : Block) : (endPulse b).gate = (b.gate && !b.goff) := by
  unfold endPulse
  split <;> simp_all

@[simp] theorem endPulse_goff (b : Block) : (endPulse b).goff = false := by
  unfold endPulse
  split <;> simp_all

/-- Sub-steps 1 to 3 advance the counter, end a pulse and sample the pins. -/
theorem beforeTriac_eq (pin : BitVec 3) (b : Block) :
    beforeTriac pin b =
      { b with
        tcnt := b.tcnt + 1
        gate := b.gate && !b.goff
        goff := false
        pins := pin } := by
  unfold beforeTriac samplePins endPulse advance
  split <;> simp_all

/-! ## The TRIAC channel -/

/-- No match, no action (42_triac.md R151, R152). -/
theorem triacChannel_of_no_match (p : Config.Params) {b : Block} (h : b.fires = false) :
    triacChannel p b = b := by
  simp [triacChannel, h]

/-- A match whose choice is the normal action (42_triac.md R153, R155). -/
theorem triacChannel_of_normal (p : Config.Params) {b : Block} (h : b.fires = true)
    (hn : b.takesNormal p = true) :
    triacChannel p b =
      { b with
        gate := true
        delayOff := false
        zct := b.zct + b.halfper
        tcmp := b.zct + b.halfper + b.tdelay
        goff := true } := by
  have hn' : ({ b with gate := true } : Block).takesNormal p = true := hn
  simp [triacChannel, h, hn', normalAction]

/-- A match whose choice is the retry action (42_triac.md R153, R156). -/
theorem triacChannel_of_retry (p : Config.Params) {b : Block} (h : b.fires = true)
    (hn : b.takesNormal p = false) :
    triacChannel p b =
      { b with gate := true, tcmp := b.tcmp + p.triacExtend, delayOff := true } := by
  have hn' : ({ b with gate := true } : Block).takesNormal p = false := hn
  simp [triacChannel, h, hn', retryAction]

/-- Whether the tick's match comes: the counter has advanced, nothing else that matters has. -/
@[simp] theorem beforeTriac_fires (pin : BitVec 3) (b : Block) :
    (beforeTriac pin b).fires = (b.armed && b.tcnt + 1 == b.tcmp) := by
  rw [beforeTriac_eq]
  rfl

/-- The choice of action reads DELAYOFF and TDELAY as the tick found them. -/
@[simp] theorem beforeTriac_takesNormal (p : Config.Params) (pin : BitVec 3) (b : Block) :
    (beforeTriac pin b).takesNormal p = b.takesNormal p := by
  rw [beforeTriac_eq]
  rfl

/-! ## What the later sub-steps see -/

/-- What sub-steps 1 to 4 leave alone of what the zero-crossing channel reads. -/
@[simp] theorem beforeZc_frame (p : Config.Params) (pin : BitVec 3) (b : Block) :
    (beforeZc p pin b).tcnt = b.tcnt + 1 ∧ (beforeZc p pin b).pins = pin ∧
    (beforeZc p pin b).zcPhase = b.zcPhase ∧ (beforeZc p pin b).zcPrev = b.zcPrev ∧
    (beforeZc p pin b).fallT = b.fallT ∧ (beforeZc p pin b).riseT = b.riseT ∧
    (beforeZc p pin b).zcCcr = b.zcCcr ∧ (beforeZc p pin b).peak = b.peak ∧
    (beforeZc p pin b).pkv = b.pkv ∧ (beforeZc p pin b).halfper = b.halfper ∧
    (beforeZc p pin b).lock = b.lock ∧ (beforeZc p pin b).tdelay = b.tdelay ∧
    (beforeZc p pin b).armed = b.armed ∧ (beforeZc p pin b).dbMode = b.dbMode ∧
    (beforeZc p pin b).dbCnt = b.dbCnt ∧ (beforeZc p pin b).dbLast = b.dbLast ∧
    (beforeZc p pin b).dbComm = b.dbComm ∧ (beforeZc p pin b).dbv = b.dbv ∧
    (beforeZc p pin b).dbchg = b.dbchg ∧ (beforeZc p pin b).dbMask = b.dbMask ∧
    (beforeZc p pin b).ctrl = b.ctrl ∧ (beforeZc p pin b).stTick = b.stTick ∧
    (beforeZc p pin b).stDbc = b.stDbc ∧ (beforeZc p pin b).stZupd = b.stZupd := by
  simp [beforeZc, beforeTriac]

@[simp] theorem beforeZc_zcExpired (p : Config.Params) (pin : BitVec 3) (b : Block) :
    (beforeZc p pin b).zcExpired = (b.tcnt + 1 == b.zcCcr) := by
  simp [Block.zcExpired]

@[simp] theorem beforeZc_fall (p : Config.Params) (pin : BitVec 3) (zc : Bool) (b : Block) :
    (beforeZc p pin b).fall zc = (b.zcPrev && !zc) := by
  simp [Block.fall]

@[simp] theorem beforeZc_rise (p : Config.Params) (pin : BitVec 3) (zc : Bool) (b : Block) :
    (beforeZc p pin b).rise zc = (!b.zcPrev && zc) := by
  simp [Block.rise]

@[simp] theorem zcChannel_zcPrev (p : Config.Params) (zc : Bool) (m : DbMode) (b : Block) :
    (zcChannel p zc m b).zcPrev = zc := rfl

/-- The elements that a tick never writes, and the three it always does. -/
@[simp] theorem tick_frame (p : Config.Params) (pin : BitVec 3) (zc : Bool) (b : Block) :
    (tick p pin zc b).tcnt = b.tcnt + 1 ∧ (tick p pin zc b).pins = pin ∧
    (tick p pin zc b).zcPrev = zc ∧ (tick p pin zc b).tdelay = b.tdelay ∧
    (tick p pin zc b).dbMask = b.dbMask ∧ (tick p pin zc b).ctrl = b.ctrl := by
  simp [tick]

/-- The debounce tail comes last and writes the filter only, so every other element is what the
zero-crossing channel left. -/
theorem tick_before_tail (p : Config.Params) (pin : BitVec 3) (zc : Bool) (b : Block) :
    let z := zcChannel p zc b.dbMode (beforeZc p pin b)
    let t := tick p pin zc b
    t.SameCapture z ∧ t.SameMeasurement z ∧ t.SameSchedule z ∧ t.gate = z.gate ∧
      t.goff = z.goff := by
  simp [tick, Block.SameCapture, Block.SameMeasurement, Block.SameSchedule]

/-! ## The zero-crossing channel -/

/-- The action of a tick that is no periodic tick writes the captures only (41_zero_crossing.md R121 to
R123, R125). -/
theorem zcAction_of_not_expireRise (p : Config.Params) (zc : Bool) (m : DbMode) (b : Block)
    (h : ¬ (b.zcPhase = .debRise ∧ b.zcExpired = true)) :
    zcAction p zc m b =
      { b with
        zcPhase := (zcAction p zc m b).zcPhase
        fallT := (zcAction p zc m b).fallT
        riseT := (zcAction p zc m b).riseT
        zcCcr := (zcAction p zc m b).zcCcr } := by
  unfold zcAction
  cases hp : b.zcPhase <;> dsimp only
  · unfold captureFall
    split <;> rfl
  · unfold expireFall
    split <;> rfl
  · unfold captureRise
    split <;> rfl
  · have : b.zcExpired = false := by simpa [hp] using h
    simp only [expireRise, this, Bool.false_eq_true, and_false, if_false]

/-- The periodic tick: the phase, the computation, the debounce step and STATUS.TICK
(41_zero_crossing.md R124, R127). -/
theorem zcAction_of_expireRise (p : Config.Params) (zc : Bool) (m : DbMode) {b : Block}
    (hp : b.zcPhase = .debRise) (he : b.zcExpired = true) :
    zcAction p zc m b = periodicTick p m { b with zcPhase := .armFall } := by
  simp [zcAction, expireRise, hp, he]

/-- The computation does not look at the phase, nor does it write it. -/
theorem periodicCompute_zcPhase (b : Block) (ph : ZcPhase) :
    periodicCompute { b with zcPhase := ph } = { periodicCompute b with zcPhase := ph } := by
  unfold periodicCompute
  split
  · unfold resync
    have : (measurePeriod { b with zcPhase := ph }).resyncs = (measurePeriod b).resyncs := rfl
    simp only [this]
    split
    · unfold arm
      have : (measurePeriod { b with zcPhase := ph }).tdelay = (measurePeriod b).tdelay := rfl
      simp only [this]
      split <;> rfl
    · rfl
  · rfl

/-- Outside a periodic tick the zero-crossing channel computes nothing and schedules nothing
(41_zero_crossing.md R125). -/
theorem zcChannel_of_not_expireRise (p : Config.Params) (zc : Bool) (m : DbMode) (b : Block)
    (h : ¬ (b.zcPhase = .debRise ∧ b.zcExpired = true)) :
    (zcChannel p zc m b).SameMeasurement b ∧ (zcChannel p zc m b).SameSchedule b ∧
      (zcChannel p zc m b).goff = b.goff ∧ (zcChannel p zc m b).SameFilter b := by
  unfold zcChannel
  rw [zcAction_of_not_expireRise p zc m b h]
  simp [Block.SameMeasurement, Block.SameSchedule, Block.SameFilter, Block.SameCommit]

/-- In a periodic tick the measurement and the schedule are those of the computation, STATUS.TICK is set
and the phase is ARM_FALL (41_zero_crossing.md R124, R127). -/
theorem zcChannel_of_expireRise (p : Config.Params) (zc : Bool) (m : DbMode) {b : Block}
    (hp : b.zcPhase = .debRise) (he : b.zcExpired = true) :
    let z := zcChannel p zc m b
    let c := periodicCompute b
    z.SameSchedule c ∧ z.goff = c.goff ∧ z.peak = c.peak ∧ z.pkv = c.pkv ∧
      z.halfper = c.halfper ∧ z.lock = c.lock ∧ z.stZupd = c.stZupd ∧ z.stTick = true ∧
      z.zcPhase = .armFall ∧ z.fallT = b.fallT ∧ z.riseT = b.riseT ∧ z.zcCcr = b.zcCcr := by
  unfold zcChannel
  rw [zcAction_of_expireRise p zc m hp he]
  unfold periodicTick
  rw [periodicCompute_zcPhase]
  dsimp only
  split <;> simp [Block.SameSchedule]

/-- The filter in a periodic tick: the step runs in COUNTING only (41_zero_crossing.md R127;
43_debounce.md R183, R189). -/
theorem zcChannel_filter_of_expireRise (p : Config.Params) (zc : Bool) (m : DbMode) {b : Block}
    (hp : b.zcPhase = .debRise) (he : b.zcExpired = true) :
    let z := zcChannel p zc m b
    let d := if m = .counting then debounceStep p b else b
    z.dbMode = d.dbMode ∧ z.dbCnt = d.dbCnt ∧ z.dbLast = d.dbLast := by
  unfold zcChannel
  rw [zcAction_of_expireRise p zc m hp he]
  unfold periodicTick
  dsimp only
  split
  · unfold debounceStep Block.masked
    simp only [periodicCompute_frame]
    split <;> simp
  · simp

/-- The first periodic computation (41_zero_crossing.md R128). -/
theorem periodicCompute_of_no_peak {b : Block} (h : b.pkv = false) :
    periodicCompute b = { b with peak := b.newPeak, pkv := true } := by
  simp [periodicCompute, h, firstPeak]

/-- A later computation that ignores a small discrepancy (41_zero_crossing.md R135). -/
theorem periodicCompute_of_small {b : Block} (h : b.pkv = true)
    (hr : (measurePeriod b).resyncs = false) : periodicCompute b = measurePeriod b := by
  simp [periodicCompute, h, resync, hr]

/-- A later computation that resynchronises and arms (41_zero_crossing.md R133, R134). -/
theorem periodicCompute_of_arm {b : Block} (h : b.pkv = true)
    (hr : (measurePeriod b).resyncs = true) (ht : b.tdelay ≠ 0) :
    periodicCompute b =
      { measurePeriod b with
        zct := (measurePeriod b).candidate
        stZupd := true
        tcmp := (measurePeriod b).candidate + b.tdelay
        armed := true
        delayOff := false
        goff := b.gate || b.goff } := by
  have ht' : b.tdelay ≠ 0#16 := ht
  simp [periodicCompute, h, resync, hr, arm, ht']

/-- A later computation that resynchronises with TDELAY at 0 (41_zero_crossing.md R133, R134). -/
theorem periodicCompute_of_resync {b : Block} (h : b.pkv = true)
    (hr : (measurePeriod b).resyncs = true) (ht : b.tdelay = 0) :
    periodicCompute b = { measurePeriod b with zct := (measurePeriod b).candidate, stZupd := true } := by
  simp [periodicCompute, h, resync, hr, arm, ht]

/-! ## The debounce tail -/

@[simp] theorem debounceTail_counting (p : Config.Params) (b : Block) :
    debounceTail p .counting b = b := rfl

/-- The verify succeeds (43_debounce.md R186). -/
theorem debounceTail_of_commit (p : Config.Params) {b : Block} (h : b.masked = b.dbLast) :
    debounceTail p .verify b =
      { b with
        dbchg := b.dbComm != b.dbLast
        dbComm := b.dbLast
        dbv := true
        dbMode := .idle
        stDbc := true } := by
  simp [debounceTail, commit, h]

/-- The verify fails (43_debounce.md R187). -/
theorem debounceTail_of_abort (p : Config.Params) {b : Block} (h : b.masked ≠ b.dbLast) :
    debounceTail p .verify b = restartCount p b.masked b := by
  simp [debounceTail, abort, h]

/-- A change is detected (43_debounce.md R188). -/
theorem debounceTail_of_detect (p : Config.Params) {b : Block} (h : b.masked ≠ b.dbComm) :
    debounceTail p .idle b = restartCount p b.masked b := by
  simp [debounceTail, detect, h]

/-- No change is detected. -/
theorem debounceTail_of_still (p : Config.Params) {b : Block} (h : b.masked = b.dbComm) :
    debounceTail p .idle b = b := by
  simp [debounceTail, detect, h]

end Sys2Proof.Machine
end

