-- ==== Sys2Proof/Laws/Host.lean ====
section
/-! SUPPORT. The host's accesses through the register map, and the bits of STATUS. -/

namespace Sys2Proof.Machine

/-- Every RD is `hostRead` of the register the map gives (44_host_bus.md R210; 10_state.md R45). -/
theorem exec_decodeRd (addr : Addr) (s : State) :
    exec (decodeRd addr) s = .next { s with rdata := some (readReg addr s.visible) } := by
  unfold decodeRd
  split <;>
    (unfold readReg
     simp only [*]
     rfl)

/-- Every WR is `hostWrite` of the effect the map gives (44_host_bus.md R211; 10_state.md R45). -/
theorem exec_decodeWr (addr : Addr) (wdata : Word) (s : State) :
    exec (decodeWr addr wdata) s = hostWrite (writeReg addr wdata) s := by
  unfold decodeWr
  split <;>
    (unfold writeReg
     simp only [*]
     rfl)

/-- A reserved offset reads as 0 (10_state.md R48). -/
theorem readReg_of_reserved {addr : Addr} (h : firstReserved ≤ addr) (b : Block) :
    readReg addr b = 0 := by
  rw [reserved_iff] at h
  unfold readReg
  split <;> first | omega | rfl

/-- A write at a reserved offset is ignored (10_state.md R48). -/
theorem writeReg_of_reserved {addr : Addr} (h : firstReserved ≤ addr) (wdata : Word) (b : Block) :
    writeReg addr wdata b = b := by
  rw [reserved_iff] at h
  unfold writeReg
  split <;> first | omega | rfl

/-- The bits of STATUS that are state elements of their own (10_state.md R46). -/
theorem statusWord_bits (b : Block) :
    b.statusWord.getLsbD 0 = b.stTick ∧ b.statusWord.getLsbD 1 = b.stDbc ∧
    b.statusWord.getLsbD 2 = b.stZupd ∧ b.statusWord.getLsbD 3 = b.dbchg ∧
    b.statusWord.getLsbD 4 = b.dbv ∧ b.statusWord.getLsbD 5 = b.pkv ∧
    b.statusWord.getLsbD 6 = b.lock ∧ b.statusWord.getLsbD 7 = b.armed ∧
    b.statusWord.getLsbD 8 = b.delayOff ∧ b.statusWord.getLsbD 9 = b.gate ∧
    b.statusWord.getLsbD 10 = b.zcPrev ∧ b.statusWord.getLsbD 15 = b.goff := by
  simp only [Block.statusWord, BitVec.getLsbD_append, Nat.reduceLT, Nat.reduceSub, reduceIte,
    BitVec.getLsbD_ofBool]
  simp

/-- The bits of STATUS that encode ZC_PHASE and DB_MODE (10_state.md R46). -/
theorem statusWord_sequencers (b : Block) :
    b.statusWord.getLsbD 11 = b.zcPhase.bits.getLsbD 0 ∧
    b.statusWord.getLsbD 12 = b.zcPhase.bits.getLsbD 1 ∧
    b.statusWord.getLsbD 13 = b.dbMode.bits.getLsbD 0 ∧
    b.statusWord.getLsbD 14 = b.dbMode.bits.getLsbD 1 := by
  simp only [Block.statusWord, BitVec.getLsbD_append, Nat.reduceLT, Nat.reduceSub, reduceIte]
  simp

/-- The low three bits of the write data, in either spelling. -/
theorem low3_eq (wdata : Word) : wdata.extractLsb' 0 3 = wdata.setWidth 3 := by
  apply BitVec.eq_of_toNat_eq
  simp

end Sys2Proof.Machine
end

