-- ==== Sys2Proof/Laws/Tick.lean ====
section
/-! SUPPORT. What a whole tick does to the elements of each unit. -/

namespace Sys2Proof.Machine

/-- The parameters of this block. -/
@[simp] theorem params_fields :
    Config.params.triacMinDelay = Config.triacMinDelay ∧
    Config.params.triacExtend = Config.triacExtend ∧ Config.params.debFall = 1000 ∧
    Config.params.debRise = 4000 ∧ Config.params.debounceLen = 5 :=
  ⟨rfl, rfl, rfl, rfl, rfl⟩

/-- The schedule and the gate after sub-step 4, in terms of the block at the start of the tick
(42_triac.md R151 to R156; 40_tick.md R102). -/
theorem beforeZc_schedule (p : Config.Params) (pin : BitVec 3) (b : Block) :
    let fire := b.armed && (b.tcnt + 1 == b.tcmp)
    let normal := fire && b.takesNormal p
    let z := beforeZc p pin b
    z.zct = (if normal then b.zct + b.halfper else b.zct) ∧
    z.tcmp =
      (if normal then b.zct + b.halfper + b.tdelay
       else if fire then b.tcmp + p.triacExtend else b.tcmp) ∧
    z.delayOff = (if fire then !normal else b.delayOff) ∧
    z.gate = (fire || (b.gate && !b.goff)) ∧ z.goff = normal := by
  intro fire normal
  unfold beforeZc
  cases hf : (beforeTriac pin b).fires
  · have hf' : fire = false := by rw [beforeTriac_fires] at hf; exact hf
    have hn : normal = false := by simp [normal, hf']
    rw [triacChannel_of_no_match _ hf, beforeTriac_eq, hn, hf']
    simp
  · have hf' : fire = true := by rw [beforeTriac_fires] at hf; exact hf
    cases hn : (beforeTriac pin b).takesNormal p
    · have hn' : normal = false := by simpa [normal, hf'] using hn
      rw [triacChannel_of_retry _ hf hn, beforeTriac_eq, hn', hf']
      simp
    · have hn' : normal = true := by simpa [normal, hf'] using hn
      rw [triacChannel_of_normal _ hf hn, beforeTriac_eq, hn', hf']
      simp

/-- In a tick without a periodic tick nothing is measured, and the schedule and the gate are those of the
TRIAC channel (41_zero_crossing.md R125). -/
theorem tick_of_not_periodic (p : Config.Params) (pin : BitVec 3) (zc : Bool) (b : Block)
    (h : ¬ (b.zcPhase = .debRise ∧ b.tcnt + 1 = b.zcCcr)) :
    let t := tick p pin zc b
    let z := beforeZc p pin b
    t.SameMeasurement b ∧ t.SameSchedule z ∧ t.gate = z.gate ∧ t.goff = z.goff := by
  obtain ⟨-, hm, hs, hg, ho⟩ := tick_before_tail p pin zc b
  have hz := zcChannel_of_not_expireRise p zc b.dbMode (beforeZc p pin b) (by simpa using h)
  simp only [Block.SameMeasurement, Block.SameSchedule] at *
  simp [hm, hs, hg, ho, hz]

/-- The filter does not move in the zero-crossing sub-step of a tick that did not start in COUNTING
(43_debounce.md R189). -/
theorem zcChannel_filter_of_not_counting (p : Config.Params) (zc : Bool) {m : DbMode} (b : Block)
    (hm : m ≠ .counting) : (zcChannel p zc m b).SameFilter b := by
  by_cases h : b.zcPhase = .debRise ∧ b.zcExpired = true
  · have hz := zcChannel_filter_of_expireRise p zc m h.1 h.2
    simp only [hm, if_false] at hz
    simp [Block.SameFilter, Block.SameCommit, hz]
  · exact (zcChannel_of_not_expireRise p zc m b h).2.2.2

/-- The masked sample of the tick, which the tail compares (43_debounce.md R182). -/
theorem zcChannel_masked (p : Config.Params) (pin : BitVec 3) (zc : Bool) (m : DbMode) (b : Block) :
    (zcChannel p zc m (beforeZc p pin b)).masked = pin &&& b.dbMask := by
  simp [Block.masked]

end Sys2Proof.Machine
end

