-- ==== Sys2Proof/Laws/Invariant.lean ====
section
/-! SUPPORT. The invariant of the block, through each part of a tick and each host write; and what can
set ARMED. -/

namespace Sys2Proof.Machine

/-- Half of a 16-bit value has its top bit clear. -/
theorem half_range (v : Word) : (half v).toNat ≤ 0x7FFF := by
  have := v.isLt
  simp [half, BitVec.toNat_ushiftRight, Nat.shiftRight_eq_div_pow]
  omega

/-! ## The parts of a tick -/

theorem Inv.beforeTriac (pin : BitVec 3) {b : Block} (h : b.Inv) : (beforeTriac pin b).Inv := by
  rw [beforeTriac_eq]
  obtain ⟨h1, h2, h3, h4, h5, h6, h7, h8, h9, h10, h11, h12, h13, h14, h15, h16, h17, h18, h19⟩ := h
  constructor <;> first
    | assumption
    | (intro hd
       have := h3 hd
       simp [this])
    | simp_all

theorem Inv.triacChannel (p : Config.Params) {b : Block} (h : b.Inv) (hg : b.goff = false) :
    (triacChannel p b).Inv := by
  cases hf : b.fires
  · rw [triacChannel_of_no_match _ hf]
    exact h
  · have hf' : b.armed = true := by
      simp [Block.fires] at hf
      exact hf.1
    have hl := (h.armedIsLocked hf').1
    obtain ⟨h1, h2, h3, h4, h5, h6, h7, h8, h9, h10, h11, h12, h13, h14, h15, h16, h17, h18, h19⟩ :=
      h
    cases hn : b.takesNormal p
    · rw [triacChannel_of_retry _ hf hn]
      constructor <;> first | assumption | simp_all
    · rw [triacChannel_of_normal _ hf hn]
      constructor <;> first | assumption | simp_all

theorem Inv.beforeZc (p : Config.Params) (pin : BitVec 3) {b : Block} (h : b.Inv) :
    (beforeZc p pin b).Inv :=
  Inv.triacChannel p (Inv.beforeTriac pin h) (by rw [beforeTriac_eq])

theorem Inv.measurePeriod {b : Block} (h : b.Inv) (hk : b.pkv = true) : (measurePeriod b).Inv := by
  obtain ⟨h1, h2, h3, h4, h5, h6, h7, h8, h9, h10, h11, h12, h13, h14, h15, h16, h17, h18, h19⟩ := h
  unfold Machine.measurePeriod
  constructor <;> first | assumption | exact half_range _ | simp_all

theorem Inv.periodicCompute {b : Block} (h : b.Inv) : (periodicCompute b).Inv := by
  cases hk : b.pkv
  · rw [periodicCompute_of_no_peak hk]
    obtain ⟨h1, h2, h3, h4, h5, h6, h7, h8, h9, h10, h11, h12, h13, h14, h15, h16, h17, h18, h19⟩ :=
      h
    constructor <;> first | assumption | simp_all
  · have hm := Inv.measurePeriod h hk
    have hl : (Machine.measurePeriod b).lock = true := rfl
    have hgo : (Machine.measurePeriod b).gate = b.gate ∧ (Machine.measurePeriod b).goff = b.goff := by
      simp
    have htd : (Machine.measurePeriod b).tdelay = b.tdelay := by simp
    cases hr : (Machine.measurePeriod b).resyncs
    · rw [periodicCompute_of_small hk hr]
      exact hm
    · by_cases ht : b.tdelay = 0
      · rw [periodicCompute_of_resync hk hr ht]
        revert hm hl
        generalize Machine.measurePeriod b = m
        rintro ⟨h1, h2, h3, h4, h5, h6, h7, h8, h9, h10, h11, h12, h13, h14, h15, h16, h17, h18, h19⟩
          hl
        constructor <;> first | assumption | simp_all
      · rw [periodicCompute_of_arm hk hr ht]
        have hgg : (b.gate || b.goff) = true → b.gate = true := by
          intro hh
          cases hb : b.gate
          · simp [hb] at hh
            simp [h.goffInPulse hh] at hb
          · rfl
        revert hm hl hgo htd
        generalize Machine.measurePeriod b = m
        rintro ⟨h1, h2, h3, h4, h5, h6, h7, h8, h9, h10, h11, h12, h13, h14, h15, h16, h17, h18, h19⟩
          hl hgo htd
        constructor <;> first
          | assumption
          | (intro hh
             exact hgo.1.trans (hgg hh))
          | simp_all

theorem Inv.debounceStep {b : Block} (h : b.Inv) (hm : b.dbMode = .counting)
    (hp : b.zcPhase = .armFall) : (debounceStep Config.params b).Inv := by
  obtain ⟨h1, h2, h3, h4, h5, h6, h7, h8, h9, h10, h11, h12, h13, h14, h15, h16, h17, h18, h19⟩ := h
  unfold Machine.debounceStep
  have h11 := h11 hm
  split
  · constructor <;> first | assumption | simp_all [Block.masked, BitVec.and_assoc]
  · have : b.dbCnt - 1 ≠ 0 → 1 ≤ (b.dbCnt - 1).toNat ∧ (b.dbCnt - 1).toNat ≤ 5 := by
      revert h11
      generalize b.dbCnt = c
      revert c
      decide
    constructor <;> first
      | assumption
      | (simp only
         split <;> simp_all)

/-- The zero-crossing phase ARM_FALL asks nothing of ZC_CCR. -/
theorem Inv.armFall {b : Block} (h : b.Inv) : Block.Inv { b with zcPhase := .armFall } := by
  obtain ⟨h1, h2, h3, h4, h5, h6, h7, h8, h9, h10, h11, h12, h13, h14, h15, h16, h17, h18, h19⟩ := h
  constructor <;> first | assumption | simp

theorem Inv.periodicTick {b : Block} (h : b.Inv) :
    (periodicTick Config.params b.dbMode { b with zcPhase := .armFall }).Inv := by
  have hc := Inv.periodicCompute (Inv.armFall h)
  have hk : (Machine.periodicCompute { b with zcPhase := .armFall }).pkv = true := by
    unfold Machine.periodicCompute
    split
    · simpa using ‹_›
    · rfl
  have hm : (Machine.periodicCompute { b with zcPhase := .armFall }).dbMode = b.dbMode ∧
      (Machine.periodicCompute { b with zcPhase := .armFall }).zcPhase = .armFall := by simp
  unfold Machine.periodicTick
  dsimp only
  revert hc hk hm
  generalize Machine.periodicCompute { b with zcPhase := .armFall } = c
  intro hc hk hm
  have hd : (if b.dbMode = .counting then Machine.debounceStep Config.params c else c).Inv ∧
      (if b.dbMode = .counting then Machine.debounceStep Config.params c else c).pkv = true := by
    split
    · exact ⟨Inv.debounceStep hc (hm.1.trans ‹_›) hm.2, by simpa⟩
    · exact ⟨hc, hk⟩
  revert hd
  generalize (if b.dbMode = .counting then Machine.debounceStep Config.params c else c) = d
  rintro ⟨⟨h1, h2, h3, h4, h5, h6, h7, h8, h9, h10, h11, h12, h13, h14, h15, h16, h17, h18, h19⟩, hk'⟩
  constructor <;> first | assumption | simp_all

/-- The debounce tail re-establishes the invariant after an action of the zero-crossing channel. -/
theorem Inv.debounceTail {b : Block} {m : DbMode} (hm : b.dbMode = m ∨ m = .counting)
    (h : Block.Inv { b with zcPhase := .armFall })
    (h9 : b.zcPhase = .debFall → b.zcCcr = b.fallT + 1000)
    (h10 : b.zcPhase = .debRise → b.zcCcr = b.riseT + 4000)
    (hv : m = .counting → b.dbMode = .verify → b.zcPhase = .armFall) :
    (debounceTail Config.params m b).Inv := by
  obtain ⟨h1, h2, h3, h4, h5, h6, h7, h8, -, -, h11, h12, h13, h14, h15, h16, h17, h18, h19⟩ := h
  cases m
  · have hm : b.dbMode = .idle := by simpa using hm
    by_cases e : b.masked = b.dbComm
    · rw [debounceTail_of_still _ e]
      constructor <;> first | assumption | simp_all
    · rw [debounceTail_of_detect _ e]
      unfold restartCount
      constructor <;> first | assumption | simp_all [Block.masked, BitVec.and_assoc]
  · constructor <;> first | assumption | simp_all
  · have hm : b.dbMode = .verify := by simpa using hm
    by_cases e : b.masked = b.dbLast
    · rw [debounceTail_of_commit _ e]
      constructor <;> first | assumption | simp_all
    · rw [debounceTail_of_abort _ e]
      unfold restartCount
      constructor <;> first | assumption | simp_all [Block.masked, BitVec.and_assoc]

/-- ZC_CCR is the target of the debounce that an action starts (10_state.md R26). -/
theorem zcAction_targets (zc : Bool) (m : DbMode) {b : Block} (h : b.Inv) :
    let z := zcAction Config.params zc m b
    (z.zcPhase = .debFall → z.zcCcr = z.fallT + 1000) ∧
      (z.zcPhase = .debRise → z.zcCcr = z.riseT + 4000) := by
  have h9 := h.fallTarget
  have h10 := h.riseTarget
  unfold zcAction
  split
  · unfold captureFall
    split <;> simp_all
  · unfold expireFall
    split <;> simp_all
  · unfold captureRise
    split <;> simp_all
  · unfold expireRise
    split <;> simp_all

/-! ## The host's writes -/

theorem Inv.setCtrl (d : Word) {b : Block} (h : b.Inv) : (setCtrl d b).Inv := by
  obtain ⟨h1, h2, h3, h4, h5, h6, h7, h8, h9, h10, h11, h12, h13, h14, h15, h16, h17, h18, h19⟩ := h
  constructor <;> assumption

theorem Inv.clearEvents (d : Word) {b : Block} (h : b.Inv) : (b.clearEvents d).Inv := by
  obtain ⟨h1, h2, h3, h4, h5, h6, h7, h8, h9, h10, h11, h12, h13, h14, h15, h16, h17, h18, h19⟩ := h
  have hc : ∀ x y : Bool, (x && y) = true → x = true := by decide
  exact ⟨h1, h2, h3, h4, h5, h6, h7, h8, h9, h10, h11, h12, h13, h14, h15, h16,
    fun hh => h17 (hh.imp id (hc _ _)), fun hh => h18 (hc _ _ hh), fun hh => h19 (hc _ _ hh)⟩

theorem Inv.setTdelay (d : Word) {b : Block} (h : b.Inv) : (setTdelay d b).Inv := by
  obtain ⟨h1, h2, h3, h4, h5, h6, h7, h8, h9, h10, h11, h12, h13, h14, h15, h16, h17, h18, h19⟩ := h
  unfold Machine.setTdelay disableDriver
  dsimp only
  split <;> constructor <;> first | assumption | simp_all

theorem Inv.setDbmask (d : Word) {b : Block} (h : b.Inv) : (setDbmask d b).Inv := by
  obtain ⟨h1, h2, h3, h4, h5, h6, h7, h8, h9, h10, h11, h12, h13, h14, h15, h16, h17, h18, h19⟩ := h
  unfold Machine.setDbmask
  dsimp only
  constructor <;> first | assumption | simp_all [BitVec.and_assoc]

/-! ## What sets ARMED -/

theorem armed_arm (b : Block) : (arm b).armed = (b.armed || decide (b.tdelay ≠ 0)) := by
  unfold arm
  split <;> simp_all

theorem armed_resync (b : Block) :
    (resync b).armed = (b.armed || (b.resyncs && decide (b.tdelay ≠ 0))) := by
  unfold resync
  split <;> simp_all [armed_arm]

/-- The computation of a periodic tick keeps ARMED set, and sets it only with TDELAY not 0
(41_zero_crossing.md R134). -/
theorem armed_periodicCompute (b : Block) :
    (b.armed = true → (periodicCompute b).armed = true) ∧
      ((periodicCompute b).armed = true → b.armed = true ∨ b.tdelay ≠ 0) := by
  unfold periodicCompute
  split
  · simp only [armed_resync, measurePeriod_frame]
    cases b.armed <;> simp
  · simp_all

/-- So does a periodic tick's action (41_zero_crossing.md R124). -/
theorem armed_expireRise (p : Config.Params) (m : DbMode) (b : Block) :
    (b.armed = true → (expireRise p m b).armed = true) ∧
      ((expireRise p m b).armed = true → b.armed = true ∨ b.tdelay ≠ 0) := by
  unfold expireRise
  split
  · have := armed_periodicCompute { b with zcPhase := .armFall }
    unfold periodicTick
    dsimp only
    split <;> simpa using this
  · simp_all

/-- And a whole tick (42_triac.md R151). -/
theorem armed_tick (p : Config.Params) (pin : BitVec 3) (zc : Bool) (b : Block) :
    (b.armed = true → (tick p pin zc b).armed = true) ∧
      ((tick p pin zc b).armed = true → b.armed = true ∨ b.tdelay ≠ 0) := by
  have := armed_expireRise p b.dbMode (beforeZc p pin b)
  simp only [tick, debounceTail_frame, zcChannel, zcAction]
  split <;> simp_all

end Sys2Proof.Machine
end

