-- ==== Sys2Proof/Laws/Run.lean ====
section
/-! SUPPORT. Sequences of operations, and ticks in which the zero-crossing channel waits. -/

namespace Sys2Proof.Machine

/-- Every instruction has a next state, and leaves the RST line and the pending inputs alone. -/
theorem exec_next (i : Instr) (s : State) :
    ∃ t, exec i s = .next t ∧ t.rst = s.rst ∧ t.pending = s.pending := by
  cases i <;> exact ⟨_, rfl, rfl, rfl⟩

theorem rst_of_exec {i : Instr} {s t : State} (h : exec i s = .next t) : t.rst = s.rst := by
  obtain ⟨u, hu, hr, -⟩ := exec_next i s
  rw [h] at hu
  cases hu
  exact hr

/-- No instruction looks at the pending inputs. -/
theorem exec_with_pending (i : Instr) {s t : State} (l : List Input) (h : exec i s = .next t) :
    exec i { s with pending := l } = .next { t with pending := l } := by
  cases i <;> cases h <;> rfl

/-- An operation that is neither RESET nor an internal action is a TICK or a host access. -/
theorem tick_or_hostAccess {i : Instr} (h : i ≠ .reset ∧ i.isEvent = false) :
    (∃ pin zc, i = .tick pin zc) ∨ isHostAccess i = true ∧ isTick i = false := by
  cases i <;> first
    | exact .inl ⟨_, _, rfl⟩
    | exact .inr ⟨rfl, rfl⟩
    | exact absurd rfl h.1
    | exact absurd h.2 (by decide)

theorem execAll_next (is : List Instr) (s : State) : ∃ t, execAll is s = .next t := by
  induction is generalizing s with
  | nil => exact ⟨s, rfl⟩
  | cons i is ih =>
    obtain ⟨t, ht, -⟩ := exec_next i s
    simp only [execAll, ht]
    exact ih t

theorem execAll_append {is js : List Instr} {s t : State} (h : execAll is s = .next t) :
    execAll (is ++ js) s = execAll js t := by
  induction is generalizing s with
  | nil =>
    cases h
    rfl
  | cons i is ih =>
    obtain ⟨u, hu, -⟩ := exec_next i s
    simp only [List.cons_append, execAll, hu] at h ⊢
    exact ih h

/-- The induction over a run without resets: a property of the number of ticks done and the state that a
tick and a host access keep. -/
theorem run_induction (P : Nat → State → Prop)
    (htick : ∀ n s pin zc, s.rst = false → P n s →
      P (n + 1) { s with blk := tick Config.params pin zc s.blk, rdata := none })
    (hhost : ∀ n i s t, s.rst = false → isHostAccess i = true → exec i s = .next t → P n s → P n t)
    {is : List Instr} {n : Nat} {s t : State} (hr : s.rst = false) (hn : NoReset is) (hp : P n s)
    (h : execAll is s = .next t) : P (n + is.countP isTick) t := by
  induction is generalizing n s with
  | nil =>
    cases h
    simpa
  | cons i is ih =>
    obtain ⟨u, hu, hur, -⟩ := exec_next i s
    simp only [execAll, hu] at h
    have hn' : NoReset is := fun j hj => hn j (by simp [hj])
    rcases tick_or_hostAccess (hn i (by simp)) with ⟨pin, zc, rfl⟩ | ⟨ha, ht⟩
    · rw [exec_tick hr] at hu
      cases hu
      have := ih (n := n + 1) (by simpa using hr) hn' (htick n s pin zc hr hp) h
      have e : List.countP isTick (Instr.tick pin zc :: is) = List.countP isTick is + 1 := by
        simp only [List.countP_cons, isTick, if_true]
      rw [e, show n + (List.countP isTick is + 1) = n + 1 + List.countP isTick is by omega]
      exact this
    · have := ih (n := n) (hur.trans hr) hn' (hhost n i s u hr ha hu hp) h
      simpa [ht] using this

/-- The captures of a tick are those of the zero-crossing channel's action. -/
theorem tick_capture (p : Config.Params) (pin : BitVec 3) (zc : Bool) (b : Block) :
    (tick p pin zc b).SameCapture (zcAction p zc b.dbMode (beforeZc p pin b)) :=
  (tick_before_tail p pin zc b).1

/-- In an ARM phase, without an edge, the zero-crossing channel does nothing (41_zero_crossing.md R121,
R123). -/
theorem zcAction_of_waiting (p : Config.Params) (pin : BitVec 3) (m : DbMode) (b : Block)
    (hp : b.zcPhase = .armFall ∨ b.zcPhase = .armRise) :
    zcAction p b.zcPrev m (beforeZc p pin b) = beforeZc p pin b := by
  rcases hp with hp | hp <;> simp [zcAction, hp, captureFall, captureRise]

/-- Such a tick leaves the channel as it was, and the TRIAC state as its own channel left it. -/
theorem tick_of_waiting (p : Config.Params) (pin : BitVec 3) (b : Block)
    (hp : b.zcPhase = .armFall ∨ b.zcPhase = .armRise) :
    let t := tick p pin b.zcPrev b
    let z := beforeZc p pin b
    t.SameCapture b ∧ t.SameMeasurement b ∧ t.SameSchedule z ∧ t.gate = z.gate ∧
      t.goff = z.goff := by
  have hnp : ¬ (b.zcPhase = .debRise ∧ b.tcnt + 1 = b.zcCcr) := by
    rintro ⟨q, -⟩
    simp [q] at hp
  obtain ⟨h1, h2, h3, h4⟩ := tick_of_not_periodic p pin b.zcPrev b hnp
  have hc := tick_capture p pin b.zcPrev b
  rw [zcAction_of_waiting p pin _ b hp] at hc
  exact ⟨by simpa [Block.SameCapture] using hc, h1, h2, h3, h4⟩

/-- A debounce tail outside VERIFY commits nothing and does not enter VERIFY (43_debounce.md R186,
R188). -/
theorem debounceTail_of_not_verify (p : Config.Params) {m : DbMode} {b : Block} (hm : m ≠ .verify)
    (hb : b.dbMode ≠ .verify) :
    let t := debounceTail p m b
    t.dbMode ≠ .verify ∧ t.SameCommit b := by
  cases m
  · simp only [debounceTail, detect]
    split
    · exact ⟨by simp [restartCount], rfl, rfl, rfl, rfl⟩
    · exact ⟨hb, rfl, rfl, rfl, rfl⟩
  · exact ⟨hb, rfl, rfl, rfl, rfl⟩
  · exact absurd rfl hm

/-- Offsets from one count, of less than a whole turn of the counter, differ when the counts do. -/
theorem count_offset_inj (t : Word) {a b : Nat} (ha : a < 65536) (hb : b < 65536) :
    t + BitVec.ofNat 16 a = t + BitVec.ofNat 16 b ↔ a = b := by
  constructor
  · intro h
    have h' : BitVec.ofNat 16 a = BitVec.ofNat 16 b := by simpa using h
    have := congrArg BitVec.toNat h'
    simp at this
    omega
  · rintro rfl
    rfl

end Sys2Proof.Machine
end

