-- ==== Sys2Proof/Laws/Trace.lean ====
section
/-! SUPPORT. The trace of a tick against its sub-steps: the actions each unit takes are that unit's
sub-step. What a host access does to the debounce filter, and to the samples of the periodic ticks. -/

namespace Sys2Proof.Machine

theorem runActions_append (p : Config.Params) (is js : List Instr) (b : Block) :
    runActions p (is ++ js) b = runActions p js (runActions p is b) := by
  simp [runActions]

theorem runActions_cons (p : Config.Params) (i : Instr) (is : List Instr) (b : Block) :
    runActions p (i :: is) b = runActions p is (ownPart p i b) := rfl

/-- The end of a pulse, after the advance and the sample, is what the TRIAC channel sees (40_tick.md
R101 to R103). -/
theorem runActions_goffEvents (p : Config.Params) (pin : BitVec 3) (b : Block) :
    runActions p (goffEvents b) { b with tcnt := b.tcnt + 1, pins := pin } = beforeTriac pin b := by
  rw [beforeTriac_eq]
  unfold goffEvents
  cases hg : b.goff <;> simp [runActions, ownPart, endPulse]

/-- The fire and its action are the TRIAC channel's sub-step (42_triac.md R153). -/
theorem runActions_triacEvents (p : Config.Params) (b : Block) :
    runActions p (triacEvents p b) b = triacChannel p b := by
  unfold triacEvents triacChannel
  cases hf : b.fires
  · rfl
  · have hn : ({ b with gate := true } : Block).takesNormal p = b.takesNormal p := rfl
    simp only [if_true, hn]
    cases b.takesNormal p <;> rfl

/-- The actions of a computation are the computation (41_zero_crossing.md R127, R133, R134). -/
theorem runActions_computeEvents (p : Config.Params) (b : Block) :
    runActions p (computeEvents b) b = periodicCompute b := by
  unfold computeEvents periodicCompute
  cases hk : b.pkv
  · rfl
  · simp only [if_true, resync, runActions]
    cases hr : (measurePeriod b).resyncs
    · rfl
    · by_cases ht : b.tdelay = 0
      · simp [ownPart, arm, ht]
      · rw [if_pos ht]
        rfl

/-- The computation does not look at STATUS.TICK, nor does it write it. -/
theorem periodicCompute_stTick (b : Block) (v : Bool) :
    periodicCompute { b with stTick := v } = { periodicCompute b with stTick := v } := by
  unfold periodicCompute
  dsimp only
  split
  · have hr : (measurePeriod { b with stTick := v }).resyncs = (measurePeriod b).resyncs := rfl
    have ht : (measurePeriod { b with stTick := v }).tdelay = (measurePeriod b).tdelay := rfl
    simp only [resync, hr]
    split
    · simp only [arm, ht]
      split <;> rfl
    · rfl
  · rfl

/-- The debounce step does not look at STATUS.TICK, nor does it write it. -/
theorem debounceStep_stTick (p : Config.Params) (b : Block) (v : Bool) :
    debounceStep p { b with stTick := v } = { debounceStep p b with stTick := v } := by
  have hm : ({ b with stTick := v } : Block).masked = b.masked := rfl
  simp only [debounceStep, hm]
  split <;> rfl

/-- The zero-crossing channel's actions are its sub-step, but for ZC_PREV (41_zero_crossing.md R121 to
R127). -/
theorem runActions_zcEvents (p : Config.Params) (zc : Bool) (m : DbMode) (b : Block) :
    runActions p (zcEvents zc m b) b = zcAction p zc m b := by
  unfold zcEvents zcAction
  cases hp : b.zcPhase <;> dsimp only
  · cases hf : b.fall zc
    · simp [captureFall, hf, runActions]
    · have : zc = false := by cases zc <;> simp_all [Block.fall]
      subst this
      rfl
  · cases hf : b.zcExpired
    · simp [expireFall, hf, runActions]
    · rfl
  · cases hf : b.rise zc
    · simp [captureRise, hf, runActions]
    · have : zc = true := by cases zc <;> simp_all [Block.rise]
      subst this
      rfl
  · cases hf : b.zcExpired
    · simp [expireRise, hf, runActions]
    · have hc : computeEvents b = computeEvents { b with zcPhase := .armFall, stTick := true } := rfl
      simp only [if_true, expireRise, hp, hf, and_self]
      rw [runActions_cons, runActions_append, hc]
      simp only [ownPart]
      rw [runActions_computeEvents, periodicCompute_stTick { b with zcPhase := .armFall }]
      unfold periodicTick
      split
      · exact debounceStep_stTick p _ true
      · rfl

/-- The tail's actions are the debounce tail, which does not write ZC_PREV (40_tick.md R106). -/
theorem runActions_tailEvents (p : Config.Params) (zc : Bool) {m : DbMode} {b : Block}
    (h : m ≠ .counting → b.dbMode = m) :
    { runActions p (tailEvents m { b with zcPrev := zc }) b with zcPrev := zc } =
      debounceTail p m { b with zcPrev := zc } := by
  have hm : ({ b with zcPrev := zc } : Block).masked = b.masked := rfl
  cases m
  · have h := h (by decide)
    simp only [tailEvents, debounceTail, detect, hm]
    by_cases e : b.masked = b.dbComm
    · simp [e, runActions]
    · simp [e, runActions, ownPart, detect, h, restartCount]
  · rfl
  · have h := h (by decide)
    simp only [tailEvents, debounceTail, commit, abort, hm]
    by_cases e : b.masked = b.dbLast
    · simp [e, runActions, ownPart, commit, h]
    · simp [e, runActions, ownPart, abort, h, restartCount]

/-- A host access is no periodic tick, so the samples are those of the rest of the run. -/
theorem periodicSamples_cons_host {i : Instr} {is : List Instr} {s t : State}
    (hi : isTick i = false) (h : exec i s = .next t) :
    periodicSamples (i :: is) s = periodicSamples is t := by
  simp only [periodicSamples, h]
  cases i <;> first | rfl | simp [isTick] at hi

/-- A host access other than WR_DBMASK leaves the filter alone, but for STATUS.DBC, which a WR_STATUS may
clear; and it does not bring a periodic tick nearer (20_memory.md R66; 43_debounce.md R189). -/
theorem hostAccess_filter {i : Instr} {s t : State} (hr : s.rst = false)
    (hi : isHostAccess i = true) (hm : ∀ a0 d, i ≠ .wrDbmask a0 d) (h : exec i s = .next t) :
    t.blk.dbMode = s.blk.dbMode ∧ t.blk.dbCnt = s.blk.dbCnt ∧ t.blk.dbLast = s.blk.dbLast ∧
    t.blk.dbComm = s.blk.dbComm ∧ t.blk.dbv = s.blk.dbv ∧ t.blk.dbchg = s.blk.dbchg ∧
    t.blk.dbMask = s.blk.dbMask ∧ t.blk.periodicDue = s.blk.periodicDue ∧
    (s.blk.stDbc = false → t.blk.stDbc = false) := by
  cases i
  case wrDbmask a0 d => exact absurd rfl (hm a0 d)
  case wrStatus a0 d =>
    simp only [exec, execWrStatus, hostWrite, hr] at h
    cases h
    refine ⟨rfl, rfl, rfl, rfl, rfl, rfl, rfl, rfl, ?_⟩
    intro hd
    simp [Block.clearEvents, hd]
  case wrTdelay a0 d =>
    simp only [exec, execWrTdelay, hostWrite, hr] at h
    cases h
    simp only [Bool.false_eq_true, if_false, setTdelay, disableDriver]
    split <;> exact ⟨rfl, rfl, rfl, rfl, rfl, rfl, rfl, rfl, id⟩
  case wrCtrl a0 d =>
    simp only [exec, execWrCtrl, hostWrite, hr] at h
    cases h
    exact ⟨rfl, rfl, rfl, rfl, rfl, rfl, rfl, rfl, id⟩
  all_goals first
    | (cases h
       exact ⟨rfl, rfl, rfl, rfl, rfl, rfl, rfl, rfl, id⟩)
    | (simp only [exec, execWrTcnt, execWrHalfper, execWrZct, execWrTcmp, execWrPeak, execWrFallt,
         execWrRiset, execWrZcccr, execWrDbstate, execWrPins, execWrRsvd, hostWrite, hr] at h
       cases h
       exact ⟨rfl, rfl, rfl, rfl, rfl, rfl, rfl, rfl, id⟩)
    | exact absurd hi (by simp [isHostAccess, isTick, Instr.isEvent])

end Sys2Proof.Machine
end

