-- ==== Sys2Proof/Tests/Slice0.lean ====
section
/-! SUPPORT. The model's own tests. The expected values are those of spec/95_test_vectors.md (the vector
is named in each docstring) or written out from the tables of spec/30_encoding.md; the vectors use the
reference parameters of that file. At the end, a state that meets the hypotheses of each statement. -/

namespace Sys2Proof.Tests

open Sys2Proof.Machine

/-- The state with this block, RST low and nothing pending. -/
def st (b : Block) : State := { State.reset with blk := b }

/-- The next state of an outcome. -/
def after (r : Host.Outcome State Fault Refusal) : Option State :=
  match r with
  | .next t => some t
  | .fault _ => none
  | .refused _ => none

/-- What a read answers. -/
def answer (r : Host.Outcome State Fault Refusal) : Option Word := (after r).bind State.rdata

/-- A tick with the reference parameters. -/
def refTick (pin : BitVec 3) (zc : Bool) (b : Block) : Block := tick Config.reference pin zc b

/-! ## Well-formedness -/

/-- A reserved read below 0x1C is no instruction: its offset is that of a register (R67). -/
theorem test_wf_refuses_rdRsvd : Instr.wf (.rdRsvd 0x1B) = false ∧ Instr.wf (.rdRsvd 0x1C) = true := by
  decide

/-- A reserved write below 0x1C is no instruction. -/
theorem test_wf_refuses_wrRsvd :
    Instr.wf (.wrRsvd 0x00 7) = false ∧ Instr.wf (.wrRsvd 0xFF 7) = true := by decide

/-! ## Decoding of words written out from 30_encoding.md R82 to R89 -/

/-- E1, E2: `{00, 26'b0, PIN, ZC}`. -/
theorem test_decode_tick :
    decodeWord 0x0000000F = .ok (.tick 0b111 true) ∧
    decodeWord 0x0000000A = .ok (.tick 0b101 false) ∧
    decodeWord 0x00000001 = .ok (.tick 0b000 true) ∧
    decodeWord 0x00000008 = .ok (.tick 0b100 false) := by decide

/-- `{01, 6'b0, ADDR, 16'b0}` for each register of R45; the program words of P0 and P2 are among them. -/
theorem test_decode_reads :
    decodeWord 0x40000000 = .ok (.rdCtrl false) ∧ decodeWord 0x40020000 = .ok (.rdStatus false) ∧
    decodeWord 0x40040000 = .ok (.rdTcnt false) ∧ decodeWord 0x40060000 = .ok (.rdHalfper false) ∧
    decodeWord 0x40080000 = .ok (.rdZct false) ∧ decodeWord 0x400A0000 = .ok (.rdTdelay false) ∧
    decodeWord 0x400C0000 = .ok (.rdTcmp false) ∧ decodeWord 0x400E0000 = .ok (.rdPeak false) ∧
    decodeWord 0x40100000 = .ok (.rdFallt false) ∧ decodeWord 0x40120000 = .ok (.rdRiset false) ∧
    decodeWord 0x40140000 = .ok (.rdZcccr false) ∧ decodeWord 0x40160000 = .ok (.rdDbmask false) ∧
    decodeWord 0x40180000 = .ok (.rdDbstate false) ∧ decodeWord 0x401A0000 = .ok (.rdPins false) ∧
    decodeWord 0x401C0000 = .ok (.rdRsvd 0x1C) := by decide

/-- E5, E11 and the ends of the map: an odd ADDR reaches the register below it (R63). -/
theorem test_decode_read_edges :
    decodeWord 0x40030000 = .ok (.rdStatus true) ∧ decodeWord 0x401B0000 = .ok (.rdPins true) ∧
    decodeWord 0x40800000 = .ok (.rdRsvd 0x80) ∧ decodeWord 0x40FF0000 = .ok (.rdRsvd 0xFF) := by
  decide

/-- `{10, 6'b0, ADDR, WDATA}` for each register of R45; E7 and the program words are among them. -/
theorem test_decode_writes :
    decodeWord 0x80000007 = .ok (.wrCtrl false 7) ∧
    decodeWord 0x80020007 = .ok (.wrStatus false 7) ∧
    decodeWord 0x80041234 = .ok (.wrTcnt false 0x1234) ∧
    decodeWord 0x80060001 = .ok (.wrHalfper false 1) ∧
    decodeWord 0x80080000 = .ok (.wrZct false 0) ∧
    decodeWord 0x800A0BB8 = .ok (.wrTdelay false 3000) ∧
    decodeWord 0x800C0005 = .ok (.wrTcmp false 5) ∧
    decodeWord 0x800E0007 = .ok (.wrPeak false 7) ∧
    decodeWord 0x80100007 = .ok (.wrFallt false 7) ∧
    decodeWord 0x80120007 = .ok (.wrRiset false 7) ∧
    decodeWord 0x80140007 = .ok (.wrZcccr false 7) ∧
    decodeWord 0x80160003 = .ok (.wrDbmask false 3) ∧
    decodeWord 0x80180000 = .ok (.wrDbstate false 0) ∧
    decodeWord 0x801A0000 = .ok (.wrPins false 0) ∧
    decodeWord 0x80FEFFFF = .ok (.wrRsvd 0xFE 0xFFFF) ∧
    decodeWord 0x800B8001 = .ok (.wrTdelay true 0x8001) := by decide

/-- E9. -/
theorem test_decode_reset : decodeWord 0xC0000000 = .ok .reset := by decide

/-- E3, E6, E8, E10, and the lowest and highest reserved bit of each format (R82 to R85). -/
theorem test_decode_reserved_bits :
    decodeWord 0x00000010 = .error .reservedBitsSet ∧
    decodeWord 0x2000000F = .error .reservedBitsSet ∧
    decodeWord 0x40020001 = .error .reservedBitsSet ∧
    decodeWord 0x40028000 = .error .reservedBitsSet ∧
    decodeWord 0x41020000 = .error .reservedBitsSet ∧
    decodeWord 0x60020000 = .error .reservedBitsSet ∧
    decodeWord 0x810A0BB8 = .error .reservedBitsSet ∧
    decodeWord 0xA00A0BB8 = .error .reservedBitsSet ∧
    decodeWord 0xC0000001 = .error .reservedBitsSet ∧
    decodeWord 0xE0000000 = .error .reservedBitsSet := by decide

/-- The codes of R89. -/
theorem test_decode_events :
    decodeEvent 0x01 = .ok .evGoff ∧ decodeEvent 0x02 = .ok .evFall ∧
    decodeEvent 0x03 = .ok .evFdeb ∧ decodeEvent 0x04 = .ok .evRise ∧
    decodeEvent 0x05 = .ok .evPtick ∧ decodeEvent 0x06 = .ok .evFirst ∧
    decodeEvent 0x07 = .ok .evMeasure ∧ decodeEvent 0x08 = .ok .evResync ∧
    decodeEvent 0x09 = .ok .evArm ∧ decodeEvent 0x0A = .ok .evFire ∧
    decodeEvent 0x0B = .ok .evNormal ∧ decodeEvent 0x0C = .ok .evRetry ∧
    decodeEvent 0x0D = .ok .evDbstep ∧ decodeEvent 0x0E = .ok .evCommit ∧
    decodeEvent 0x0F = .ok .evAbort ∧ decodeEvent 0x10 = .ok .evDetect := by decide

/-- No other code names an action. -/
theorem test_decode_unknown_events :
    decodeEvent 0x00 = .error .unknownEvent ∧ decodeEvent 0x11 = .error .unknownEvent ∧
    decodeEvent 0xFF = .error .unknownEvent := by decide

/-- The host's numbering: an event row has 8 bits, an operation word 32. -/
theorem test_decode_table_word :
    decodeTableWord 32 0x00000000 = some (.tick 0 false) ∧
    decodeTableWord 32 0x800A0000 = some (.wrTdelay false 0) ∧
    decodeTableWord 8 0x10 = some .evDetect ∧ decodeTableWord 8 0x11 = none ∧
    decodeTableWord 32 0x10 = none := by decide

/-- The text forms of R90, with the words of P0. -/
theorem test_text_of_words :
    wordText 0x0000000A = some "TICK zc=0, pins=0b101" ∧ wordText 0x40100000 = some "RD FALLT" ∧
    wordText 0x40800000 = some "RD 128" ∧ wordText 0x40030000 = some "RD 3" ∧
    wordText 0x800A0BB8 = some "WR TDELAY, 3000" ∧ wordText 0xC0000000 = some "RESET" ∧
    wordText 0x00000010 = none := by decide

/-- The reference waveform of P1 in small: `zc = 0` for the ticks f to f + w - 1 (R91). -/
theorem test_cycle_levels :
    expand (.cycle 2 2 4 0b111) =
      [.tick 0b111 true, .tick 0b111 false, .tick 0b111 false, .tick 0b111 true] := by decide

/-! ## The step -/

/-- A word placed as the next input runs as the first instruction after reset. -/
theorem test_fetch_runs_first :
    (after (step (State.reset.withFetchWord 32 0x0000000B))).map
      (fun t => (t.blk.tcnt, t.blk.pins, t.blk.zcPrev, t.pending)) =
      some (1, 0b101, true, []) := by decide

/-- E3: a word with a reserved bit set is refused. -/
theorem test_step_refuses_reserved_bits :
    step (State.reset.withFetchWord 32 0x00000010) = .refused .reservedBitsSet := rfl

/-! ## TICK: K1 to K4 -/

/-- K1. -/
theorem test_k1_first_tick :
    refTick 0b111 true Block.reset =
      { Block.reset with tcnt := 0x0001, zcPrev := true, pins := 0b111 } := by decide

/-- K2. -/
theorem test_k2_wrap : (refTick 0b111 true { Block.reset with tcnt := 0xFFFF }).tcnt = 0x0000 := by
  decide

/-- A gate pulse that is to end: K3 and K4. -/
def pulsing : Block :=
  { Block.reset with
    tcnt := 0x0FFF, gate := true, goff := true, armed := true, lock := true, pkv := true
    halfper := 0x208D, tdelay := 0x0BB8, tcmp := 0x2000 }

/-- K3. -/
theorem test_k3_pulse_ends :
    (refTick 0b111 false pulsing).gate = false ∧ (refTick 0b111 false pulsing).goff = false := by
  decide

/-- K4. -/
theorem test_k4_fire_follows_end :
    (refTick 0b111 false { pulsing with tcmp := 0x1000 }).gate = true ∧
      (refTick 0b111 false { pulsing with tcmp := 0x1000 }).goff = true := by decide

/-! ## The zero-crossing channel: Z1 to Z14 -/

/-- Z1, Z1w. -/
theorem test_z1_falling_edge :
    (let b := refTick 7 false { Block.reset with zcPrev := true, tcnt := 0x07CF }
     (b.fallT, b.zcCcr, b.zcPhase)) = (0x07D0, 0x0BB8, .debFall) ∧
    (let b := refTick 7 false { Block.reset with zcPrev := true, tcnt := 0xFEFF }
     (b.fallT, b.zcCcr)) = (0xFF00, 0x02E8) := by decide

/-- Z2r: a rising edge in ARM_FALL is ignored. -/
theorem test_z2_wrong_edge :
    refTick 7 true Block.reset = { Block.reset with tcnt := 1, zcPrev := true } := by decide

/-- Z3, Z4. -/
theorem test_z4_debounce_expiry :
    (let b := refTick 7 true { Block.reset with zcPhase := .debFall, zcCcr := 0x04E8, tcnt := 0x02FF }
     (b.zcPhase, b.zcPrev)) = (.debFall, true) ∧
    (let b := refTick 7 true { Block.reset with zcPhase := .debFall, zcCcr := 0x04E8, tcnt := 0x04E7 }
     (b.zcPhase, b.riseT, b.zcPrev)) = (.armRise, 0, true) := by decide

/-- Z5. -/
theorem test_z5_rising_edge :
    (let b := refTick 7 true { Block.reset with zcPhase := .armRise, tcnt := 0x1C57 }
     (b.riseT, b.zcCcr, b.zcPhase)) = (0x1C58, 0x2BF8, .debRise) := by decide

/-- The common start state of Z6 to Z14. -/
def z0 : Block :=
  { Block.reset with
    zcPhase := .debRise, fallT := 0x0000, riseT := 0x1B58, zcCcr := 0x2BF8, tcnt := 0x2BF7
    peak := 0xCC92, pkv := true, zcPrev := true, dbMode := .idle, dbCnt := 0, dbv := true }

/-- The common start state of Z8 to Z12b: an armed scheduler. -/
def z8 : Block :=
  { z0 with armed := true, lock := true, zct := 0x3E7F, tcmp := 0x4A37, tdelay := 0x0BB8 }

/-- Z6. -/
theorem test_z6_first_peak :
    (let b := refTick 7 true { z0 with pkv := false, peak := 0, tdelay := 0x0BB8 }
     (b.peak, b.pkv, b.stTick, b.halfper, b.lock, b.armed, b.stZupd)) =
      (0x0DAC, true, true, 0x0000, false, false, false) := by decide

/-- Z7. -/
theorem test_z7_measure_and_arm :
    (let b := refTick 7 true { z0 with tdelay := 0x0BB8 }
     (b.halfper, b.lock, b.zct, b.stZupd, b.tcmp, b.armed, b.delayOff)) =
      (0x208D, true, 0x3E7F, true, 0x4A37, true, false) := by decide

/-- Z7z. -/
theorem test_z7z_resync_without_delay :
    (let b := refTick 7 true z0
     (b.zct, b.stZupd, b.armed, b.tcmp)) = (0x3E7F, true, false, 0x0000) := by decide

/-- Z8, Z9, Z10, Z12: a small discrepancy, boundaries included. -/
theorem test_z8_small :
    (let b := refTick 7 true z8
     (b.zct, b.tcmp, b.stZupd)) = (0x3E7F, 0x4A37, false) ∧
    (let b := refTick 7 true { z8 with zct := 0x1DF2, tcmp := 0x29AA }
     (b.zct, b.tcmp, b.stZupd)) = (0x1DF2, 0x29AA, false) ∧
    (let b := refTick 7 true { z8 with zct := 0x4EC5, tcmp := 0x5A7D }
     (b.zct, b.tcmp, b.stZupd)) = (0x4EC5, 0x5A7D, false) ∧
    (let b := refTick 7 true { z8 with zct := 0x0DAC, tcmp := 0x1964 }
     (b.zct, b.tcmp, b.stZupd)) = (0x0DAC, 0x1964, false) := by decide

/-- Z11, Z12b: a large discrepancy, one beyond each boundary. -/
theorem test_z11_large :
    (let b := refTick 7 true { z8 with zct := 0x4EC6, tcmp := 0x5A7E }
     (b.zct, b.tcmp, b.stZupd, b.delayOff)) = (0x3E7F, 0x4A37, true, false) ∧
    (let b := refTick 7 true { z8 with zct := 0x0DAB }
     (b.zct, b.tcmp, b.stZupd)) = (0x3E7F, 0x4A37, true) := by decide

/-- Z13, Z14. -/
theorem test_z13_z14_extremes :
    (let b := refTick 7 true { z0 with peak := 0x0DAC, tdelay := 0x0005 }
     (b.halfper, b.zct, b.tcmp, b.armed)) = (0, 0x0DAC, 0x0DB1, true) ∧
    (let b := refTick 7 true
      { z0 with fallT := 0xF000, riseT := 0x0B58, zcCcr := 0x1AF8, tcnt := 0x1AF7, peak := 0xBC92 }
     (b.peak, b.halfper, b.zct, b.stZupd)) = (0xFDAC, 0x208D, 0x2E7F, true) := by decide

/-! ## The TRIAC channel: T1 to T10 -/

/-- The start state of T1. -/
def t1 : Block :=
  { Block.reset with
    armed := true, lock := true, pkv := true, zct := 0x3E7F, halfper := 0x208D, tdelay := 0x0BB8
    tcmp := 0x4A37, tcnt := 0x4A36 }

/-- The start state of T2. -/
def t2 : Block := { t1 with tdelay := 0x012C, tcmp := 0x3FAB, tcnt := 0x3FAA }

/-- T1: a pulse of 1 tick. -/
theorem test_t1_normal :
    (let b := refTick 7 false t1
     (b.gate, b.zct, b.tcmp, b.delayOff, b.goff)) = (true, 0x5F0C, 0x6AC4, false, true) ∧
    (let b := refTick 7 false (refTick 7 false t1)
     (b.gate, b.goff)) = (false, false) := by decide

/-- T2, T2b. -/
theorem test_t2_retry :
    (let b := refTick 7 false t2
     (b.gate, b.tcmp, b.delayOff, b.goff)) = (true, 0x40D7, true, false) ∧
    (let b := refTick 7 false { refTick 7 false t2 with tcnt := 0x40D6 }
     (b.zct, b.tcmp, b.delayOff, b.goff, b.gate)) = (0x5F0C, 0x6038, false, true, true) := by
  decide

/-- T3, T3b: the threshold is strict. -/
theorem test_t3_threshold :
    (refTick 7 false { t1 with tdelay := 0x01F4 }).delayOff = true ∧
    (refTick 7 false { t1 with tdelay := 0x01F5 }).delayOff = false := by decide

/-- T4. -/
theorem test_t4_disarmed : (refTick 7 false { t1 with armed := false }).gate = false := by decide

/-- T6: the TRIAC channel comes first, and the resynchronisation sees its ZCT. -/
theorem test_t6_fire_then_resync :
    (let b := refTick 7 true
      { z8 with zct := 0x430E, tcmp := 0x2BF8, halfper := 0x208D }
     (b.zct, b.tcmp, b.stZupd, b.gate, b.goff)) = (0x3E7F, 0x4A37, true, true, true) := by decide

/-- T7: a resynchronisation ends a retry pulse at the next tick. -/
theorem test_t7_resync_in_pulse :
    (let b := refTick 7 true
      { z8 with zct := 0x4EC6, tcmp := 0x5A7E, gate := true, delayOff := true, tdelay := 0x012C }
     (b.zct, b.tcmp, b.delayOff, b.goff, b.gate)) = (0x3E7F, 0x3FAB, false, true, true) := by
  decide

/-! ## The debounce filter: B1 to B12 -/

/-- A periodic tick is due and the filter counts. -/
def counting : Block := { z0 with dbMode := .counting, dbCnt := 1, dbLast := 0b110 }

/-- The filter verifies. -/
def verifying : Block := { Block.reset with dbMode := .verify, dbCnt := 0, dbLast := 0b110 }

/-- The filter is idle. -/
def idle : Block := { Block.reset with dbMode := .idle, dbCnt := 0, dbv := true }

/-- B1, B12: VERIFY is entered and does not run in the same tick. -/
theorem test_b1_enters_verify :
    (let b := refTick 0b110 true counting
     (b.dbCnt, b.dbMode, b.dbComm, b.stDbc)) = (0, .verify, 0b111, false) := by decide

/-- B2. -/
theorem test_b2_restart :
    (let b := refTick 0b110 true { counting with dbLast := 0b111, dbCnt := 3 }
     (b.dbLast, b.dbCnt, b.dbMode)) = (0b110, 5, .counting) := by decide

/-- B3, B3s. -/
theorem test_b3_commit :
    (let b := refTick 0b110 true verifying
     (b.dbComm, b.dbchg, b.stDbc, b.dbv, b.dbMode)) = (0b110, true, true, true, .idle) ∧
    (let b := refTick 0b111 true { verifying with dbLast := 0b111 }
     (b.dbComm, b.dbchg, b.stDbc, b.dbv)) = (0b111, false, true, true) := by decide

/-- B4. -/
theorem test_b4_abort :
    (let b := refTick 0b100 true verifying
     (b.dbMode, b.dbCnt, b.dbLast, b.dbComm, b.stDbc)) = (.counting, 5, 0b100, 0b111, false) := by
  decide

/-- B5, B6, B7. -/
theorem test_b5_detect :
    (let b := refTick 0b101 true idle
     (b.dbMode, b.dbCnt, b.dbLast)) = (.counting, 5, 0b101) ∧
    (refTick 0b111 true idle).dbMode = .idle ∧
    (refTick 0b011 true { idle with dbMask := 0b011, dbComm := 0b011, dbLast := 0b011 }).dbMode =
      .idle := by decide

/-- B11. -/
theorem test_b11_waits :
    (let b := refTick 0b000 true { Block.reset with dbCnt := 3 }
     (b.dbMode, b.dbCnt, b.dbLast)) = (.counting, 3, 0b111) := by decide

/-! ## The internal actions through `exec` -/

/-- EV_GOFF (K3), EV_FALL (Z1), EV_FDEB (Z4), EV_RISE (Z5), each after the counter has advanced. -/
theorem test_events_of_the_channel :
    (after (exec .evGoff (st pulsing))).map (fun t => (t.blk.gate, t.blk.goff)) =
      some (false, false) ∧
    (after (exec .evFall (st { Block.reset with zcPrev := true, tcnt := 0x07D0 }))).map
      (fun t => (t.blk.fallT, t.blk.zcCcr)) = some (0x07D0, 0x0BB8) ∧
    (after (exec .evFdeb (st { Block.reset with
      zcPhase := .debFall, zcCcr := 0x04E8, tcnt := 0x04E8 }))).map
      (fun t => t.blk.zcPhase) = some .armRise ∧
    (after (exec .evRise (st { Block.reset with zcPhase := .armRise, tcnt := 0x1C58 }))).map
      (fun t => (t.blk.riseT, t.blk.zcCcr)) = some (0x1C58, 0x2BF8) := by decide

/-- EV_FIRST (Z6), EV_MEASURE (Z7), EV_RESYNC and EV_ARM (Z7), EV_PTICK (Z7). -/
theorem test_events_of_the_periodic_tick :
    (after (exec .evFirst (st z0))).map (fun t => t.blk.peak) = some 0x0DAC ∧
    (after (exec .evMeasure (st z0))).map (fun t => (t.blk.halfper, t.blk.lock)) =
      some (0x208D, true) ∧
    (after (exec .evResync (st { z0 with peak := 0x0DAC, halfper := 0x208D, tdelay := 0x0BB8 }))).map
      (fun t => (t.blk.zct, t.blk.tcmp, t.blk.armed)) = some (0x3E7F, 0x4A37, true) ∧
    (after (exec .evArm (st { z0 with zct := 0x3E7F, tdelay := 0x0BB8 }))).map
      (fun t => (t.blk.tcmp, t.blk.armed)) = some (0x4A37, true) ∧
    (after (exec .evPtick (st { z0 with tcnt := 0x2BF8, tdelay := 0x0BB8 }))).map
      (fun t => (t.blk.halfper, t.blk.tcmp, t.blk.stTick)) = some (0x208D, 0x4A37, true) := by decide

/-- EV_NORMAL and EV_FIRE (T2b, where DELAYOFF decides), EV_RETRY (R156). -/
theorem test_events_of_the_triac_channel :
    (after (exec .evNormal (st t1))).map (fun t => (t.blk.zct, t.blk.tcmp, t.blk.goff)) =
      some (0x5F0C, 0x6AC4, true) ∧
    (after (exec .evRetry (st t1))).map (fun t => (t.blk.zct, t.blk.delayOff)) =
      some (0x3E7F, true) ∧
    (after (exec .evFire (st { t2 with tcnt := 0x40D7, tcmp := 0x40D7, delayOff := true }))).map
      (fun t => (t.blk.gate, t.blk.tcmp, t.blk.goff)) = some (true, 0x6038, true) := by decide

/-- EV_DBSTEP (B2), EV_COMMIT (B3), EV_ABORT (B4), EV_DETECT (B5). -/
theorem test_events_of_the_filter :
    (after (exec .evDbstep (st { counting with dbLast := 0b111, dbCnt := 3, pins := 0b110 }))).map
      (fun t => (t.blk.dbLast, t.blk.dbCnt)) = some (0b110, 5) ∧
    (after (exec .evCommit (st { verifying with pins := 0b110 }))).map
      (fun t => (t.blk.dbComm, t.blk.dbchg, t.blk.stDbc)) = some (0b110, true, true) ∧
    (after (exec .evAbort (st { verifying with pins := 0b100 }))).map
      (fun t => (t.blk.dbMode, t.blk.dbLast)) = some (.counting, 0b100) ∧
    (after (exec .evDetect (st { idle with pins := 0b101 }))).map
      (fun t => (t.blk.dbMode, t.blk.dbLast)) = some (.counting, 0b101) := by decide

/-! ## The host's accesses: H1 to H8, T8 to T10, B8, and P1's end state -/

/-- The end state of P1, whose registers 95_test_vectors.md lists. -/
def p1End : Block :=
  { Block.reset with
    tcnt := 0x4582, zcPrev := true, fallT := 0x0C38, riseT := 0x2790, zcCcr := 0x3730
    peak := 0x19E4, pkv := true, halfper := 0x208D, lock := true, zct := 0x4AB7, tdelay := 0x0BB8
    tcmp := 0x566F, armed := true, dbMode := .idle, dbCnt := 0, dbv := true, stTick := true
    stDbc := true, stZupd := true }

/-- The reads of P1's end state. -/
theorem test_reads_of_p1 :
    answer (exec (.rdCtrl false) (st p1End)) = some 0x0000 ∧
    answer (exec (.rdStatus false) (st p1End)) = some 0x04F7 ∧
    answer (exec (.rdTcnt false) (st p1End)) = some 0x4582 ∧
    answer (exec (.rdHalfper false) (st p1End)) = some 0x208D ∧
    answer (exec (.rdZct false) (st p1End)) = some 0x4AB7 ∧
    answer (exec (.rdTdelay true) (st p1End)) = some 0x0BB8 ∧
    answer (exec (.rdTcmp false) (st p1End)) = some 0x566F ∧
    answer (exec (.rdPeak false) (st p1End)) = some 0x19E4 ∧
    answer (exec (.rdFallt false) (st p1End)) = some 0x0C38 ∧
    answer (exec (.rdRiset false) (st p1End)) = some 0x2790 ∧
    answer (exec (.rdZcccr false) (st p1End)) = some 0x3730 ∧
    answer (exec (.rdDbmask false) (st p1End)) = some 0x0007 ∧
    answer (exec (.rdDbstate false) (st p1End)) = some 0x0077 ∧
    answer (exec (.rdPins false) (st p1End)) = some 0x0007 ∧
    answer (exec (.rdRsvd 0x80) (st p1End)) = some 0x0000 := by decide

/-- H1, H2. -/
theorem test_h1_write_ctrl :
    (after (exec (.wrCtrl false 0xFFFF) State.reset)).map (fun t => readReg 0x00 t.blk) =
      some 0x0007 ∧
    (after (exec (.wrCtrl false 0x0001) (st { Block.reset with stTick := true }))).map
      (fun t => t.blk.irq) = some true := by decide

/-- The state of H3 and H4: STATUS = 0x2087. -/
def h3 : Block := { Block.reset with stTick := true, stDbc := true, stZupd := true, armed := true }

/-- H3, H4. -/
theorem test_h3_write_status :
    h3.statusWord = 0x2087 ∧
    (after (exec (.wrStatus false 0x0001) (st h3))).map (fun t => t.blk.statusWord) =
      some 0x2086 ∧
    (after (exec (.wrStatus false 0xFFF8) (st h3))).map (fun t => t.blk.statusWord) =
      some 0x2087 := by decide

/-- T8, T9, T10. -/
theorem test_t8_write_tdelay :
    (after (exec (.wrTdelay false 0) (st { t2 with gate := true, delayOff := true }))).map
      (fun t => (t.blk.armed, t.blk.delayOff, t.blk.gate, t.blk.goff, t.blk.tcmp, t.blk.zct)) =
      some (false, false, false, false, 0x3FAB, 0x3E7F) ∧
    (after (exec (.wrTdelay false 3000) State.reset)).map (fun t => (t.blk.tdelay, t.blk.armed)) =
      some (0x0BB8, false) ∧
    (after (exec (.wrTdelay false 0x0FA0) (st t1))).map (fun t => (t.blk.tdelay, t.blk.tcmp)) =
      some (0x0FA0, 0x4A37) := by decide

/-- B8. -/
theorem test_b8_write_dbmask :
    (after (exec (.wrDbmask false 0x0003)
      (st { Block.reset with dbComm := 0b110, dbLast := 0b110 }))).map
      (fun t => (t.blk.dbMask, t.blk.dbComm, t.blk.dbLast)) = some (0b011, 0b010, 0b010) := by
  decide

/-- H6, E12. -/
theorem test_h6_ignored_writes :
    (after (exec (.wrTcnt false 0x1234) (st p1End))).map State.blk = some p1End ∧
    (after (exec (.wrHalfper false 1) (st p1End))).map State.blk = some p1End ∧
    (after (exec (.wrZct false 0) (st p1End))).map State.blk = some p1End ∧
    (after (exec (.wrTcmp false 5) (st p1End))).map State.blk = some p1End ∧
    (after (exec (.wrPeak false 7) (st p1End))).map State.blk = some p1End ∧
    (after (exec (.wrFallt false 7) (st p1End))).map State.blk = some p1End ∧
    (after (exec (.wrRiset false 7) (st p1End))).map State.blk = some p1End ∧
    (after (exec (.wrZcccr false 7) (st p1End))).map State.blk = some p1End ∧
    (after (exec (.wrDbstate false 0) (st p1End))).map State.blk = some p1End ∧
    (after (exec (.wrPins false 0) (st p1End))).map State.blk = some p1End ∧
    (after (exec (.wrRsvd 0xFE 0xFFFF) (st p1End))).map State.blk = some p1End := by decide

/-! ## RESET: R-1 -/

/-- R-1. -/
theorem test_r1_reset :
    (after (exec .reset (st p1End))).map (fun t =>
      (readReg 0x02 t.blk, readReg 0x16 t.blk, readReg 0x18 t.blk, readReg 0x1A t.blk, t.blk.irq,
        t.blk.gateOut)) = some (0x2000, 0x0007, 0x0577, 0x0007, false, false) := by decide

/-- The trace of Z7, and that of a periodic tick in COUNTING: the order is that of R107 and R127. -/
theorem test_trace_order :
    tickEvents Config.params 7 true { z0 with tdelay := 0x0BB8 } =
      [.evPtick, .evMeasure, .evResync, .evArm] ∧
    tickEvents Config.params 0b110 true { counting with goff := true } =
      [.evGoff, .evPtick, .evMeasure, .evResync, .evDbstep] := by decide

/-! ## States that meet the hypotheses of the statements -/

/-- Both cases of ReservedBitsAreRefused. -/
theorem witness_ReservedBitsAreRefused :
    (State.reset.withFetchWord 32 0x0000000F).pending = [.code (.op 0x0000000F)] ∧
      reservedClear 0x0000000F = true ∧ reservedClear 0x00000010 = false := by decide

theorem witness_EncodeOfDecode : decode (.op 0x40FF0000) = .ok (.rdRsvd 0xFF) := by decide

theorem witness_DecodeOfEncode : WellFormed (.wrRsvd 0x1C 0xFFFF) ∧ WellFormed (.tick 7 true) := by
  decide

/-- The three clauses: a pending word, the code of a well-formed instruction, a table word. -/
theorem witness_StepRunsTheDecodedInstruction :
    (State.reset.withFetchWord 32 0x0000000F).pending = [.code (.op 0x0000000F)] ∧
      decode (.op 0x0000000F) = .ok (.tick 7 true) ∧
      WellFormed (.wrRsvd 0xFF 0xFFFF) ∧
      (State.reset.withProgram [.wrRsvd 0xFF 0xFFFF]).pending =
        [.code (encode (.wrRsvd 0xFF 0xFFFF))] ∧
      decodeTableWord 8 0x10 = some .evDetect := by decide

theorem witness_StateIsHeldWithNothingPending : State.reset.pending = [] := rfl

theorem witness_ProgramRunIsExecAll : ∀ i ∈ [.reset, .wrTdelay false 3000, .tick 7 true], WellFormed i := by
  decide

theorem witness_HostAccessLeavesTheMeasurements :
    isHostAccess (.wrTdelay false 0) = true ∧
      (after (exec (.wrTdelay false 0) (st t1))).isSome = true := by decide

/-- A write changes each of the three registers. -/
theorem witness_OnlyTheHostWritesItsRegisters :
    (st p1End).rst = false ∧
    (after (exec (.wrCtrl false 7) (st p1End))).map (fun t => t.blk.ctrl) ≠ some p1End.ctrl ∧
    (after (exec (.wrTdelay false 1) (st p1End))).map (fun t => t.blk.tdelay) ≠
      some p1End.tdelay ∧
    (after (exec (.wrDbmask false 3) (st p1End))).map (fun t => t.blk.dbMask) ≠
      some p1End.dbMask := by decide

/-- ARMED is cleared by a write of 0 to TDELAY and set by a tick. -/
theorem witness_WhatClearsAndSetsArmed :
    (after (exec (.wrTdelay false 0) (st t1))).map (fun t => t.blk.armed) = some false ∧
    (after (exec (.tick 7 true) (st { z0 with tdelay := 0x0BB8 }))).map (fun t => t.blk.armed) =
      some true := by decide

/-- Quiet ticks in the four phases and in the two waiting modes of the filter. -/
theorem witness_QuietTickChangesNothingElse :
    (st p1End).rst = false ∧ p1End.goff = false ∧
    ¬ (p1End.armed = true ∧ p1End.tcnt + 1 = p1End.tcmp) ∧ p1End.zcPhase = .armFall ∧
    ¬ (p1End.zcPrev = true ∧ true = false) ∧ p1End.dbMode = .idle ∧
    0b111 &&& p1End.dbMask = p1End.dbComm ∧
    z0.goff = false ∧ z0.armed = false ∧ ({ z0 with tcnt := 5 } : Block).tcnt + 1 ≠ z0.zcCcr ∧
    Block.reset.dbMode = .counting ∧ Block.reset.zcPrev = false := by decide

/-- With actions (Z7) and without. -/
theorem witness_EmptyTraceMeansQuietTick :
    State.reset.rst = false ∧ tickEvents Config.params 7 true Block.reset = [] ∧
    (st { z0 with tdelay := 0x0BB8 }).rst = false ∧
    tickEvents Config.params 7 true { z0 with tdelay := 0x0BB8 } ≠ [] := by decide

/-- Each bound is reached, and each choice is made: Z7 and B1, then Z2, Z4, B2, B3 and B5. -/
theorem witness_AtMostOneActionOfEachUnit :
    (st counting).rst = false ∧ .evPtick ∈ tickEvents Config.params 0b110 true counting ∧
    .evDbstep ∈ tickEvents Config.params 0b110 true counting ∧
    .evFall ∈ tickEvents Config.params 7 false { Block.reset with zcPrev := true } ∧
    .evRise ∈ tickEvents Config.params 7 true { Block.reset with zcPhase := .armRise } ∧
    .evFdeb ∈
      tickEvents Config.params 7 true { Block.reset with zcPhase := .debFall, zcCcr := 1 } ∧
    .evCommit ∈ tickEvents Config.params 0b110 true verifying ∧
    .evAbort ∈ tickEvents Config.params 0b101 true verifying ∧
    .evDetect ∈ tickEvents Config.params 0b101 true idle := by decide

/-- K3 and K4. -/
theorem witness_GatePulseEndsAtTheNextTick :
    (st pulsing).rst = false ∧ pulsing.goff = true ∧
    ¬ (pulsing.armed = true ∧ pulsing.tcnt + 1 = pulsing.tcmp) ∧
    pulsing.tcnt + 1 = ({ pulsing with tcmp := 0x1000 } : Block).tcmp := by decide

/-- Each clause has a state: an edge and none in both ARM phases, Z1, Z2 and Z5. -/
theorem witness_EdgesAreCapturedInArmPhases :
    Block.reset.zcPhase = .armFall ∧ Block.reset.zcPrev = false ∧ p1End.zcPhase = .armFall ∧
    p1End.zcPrev = true ∧ ({ Block.reset with zcPhase := .armRise } : Block).zcPrev = false ∧
    ({ p1End with zcPhase := .armRise } : Block).zcPrev = true := by decide

/-- Z3, Z4 and the periodic tick; the boundary is the tick with T == ZC_CCR. -/
theorem witness_DebouncePhasesEndAtTheirTarget :
    z0.zcPhase = .debRise ∧ z0.tcnt + 1 = z0.zcCcr ∧
    ({ z0 with tcnt := 0x2BF6 } : Block).tcnt + 1 ≠ z0.zcCcr ∧
    ({ Block.reset with zcPhase := .debFall, zcCcr := 0x04E8, tcnt := 0x04E7 } : Block).tcnt + 1 =
      0x04E8 := by decide

theorem witness_FirstPeriodicTickRecordsThePeak :
    (st { z0 with pkv := false }).rst = false ∧ z0.zcPhase = .debRise ∧ z0.tcnt + 1 = z0.zcCcr ∧
    ¬ (z0.armed = true ∧ z0.tcnt + 1 = z0.tcmp) := by decide

theorem witness_LaterPeriodicTicksMeasure :
    (st z0).rst = false ∧ z0.zcPhase = .debRise ∧ z0.tcnt + 1 = z0.zcCcr ∧ z0.pkv = true := by decide

/-- Z7 (disabled), Z8 (small, with |D0| = 0) and Z11 (large), with no fire in the tick. -/
theorem witness_PeriodicTickResyncPolicy :
    z8.zcPhase = .debRise ∧ z8.tcnt + 1 = z8.zcCcr ∧ z8.pkv = true ∧ z8.armed = true ∧
    z8.tcnt + 1 ≠ z8.tcmp ∧ z0.armed = false ∧ z0.tdelay = 0 ∧ z8.tdelay ≠ 0 ∧
    (measurePeriod z8).small = true ∧ (measurePeriod { z8 with zct := 0x4EC5 }).small = true ∧
    (measurePeriod { z8 with zct := 0x4EC6 }).small = false := by decide

/-- A match of a tick that is no periodic tick, with DELAYOFF set. -/
theorem witness_MatchTakesTheNormalAction :
    let b : Block := { t2 with delayOff := true }
    (st b).rst = false ∧ b.armed = true ∧ b.tcnt + 1 = b.tcmp ∧
    (Config.triacMinDelay < b.tdelay ∨ b.delayOff = true) ∧
    ¬ (b.zcPhase = .debRise ∧ b.tcnt + 1 = b.zcCcr) :=
  ⟨rfl, rfl, by decide, .inr rfl, by decide⟩

/-- A match with TDELAY equal to the threshold, whatever it is. -/
theorem witness_MatchTakesTheRetryAction :
    let b : Block := { t2 with tdelay := Config.triacMinDelay }
    (st b).rst = false ∧ b.armed = true ∧ b.tcnt + 1 = b.tcmp ∧
    ¬ Config.triacMinDelay < b.tdelay ∧ b.delayOff = false ∧
    ¬ (b.zcPhase = .debRise ∧ b.tcnt + 1 = b.zcCcr) := by
  refine ⟨rfl, rfl, ?_, ?_, rfl, ?_⟩
  · show (0x3FAA : Word) + 1 = 0x3FAB
    decide
  · exact BitVec.lt_irrefl _
  · rintro ⟨h, -⟩
    exact absurd h (by decide)

theorem witness_NoMatchKeepsTheSchedule :
    ¬ (p1End.armed = true ∧ p1End.tcnt + 1 = p1End.tcmp) ∧
    ¬ (p1End.zcPhase = .debRise ∧ p1End.tcnt + 1 = p1End.zcCcr) := by decide

/-- B1 and B2. -/
theorem witness_DebounceStepAtThePeriodicTick :
    counting.dbMode = .counting ∧ counting.zcPhase = .debRise ∧
    counting.tcnt + 1 = counting.zcCcr ∧ 0b110 &&& counting.dbMask = counting.dbLast ∧
    0b111 &&& counting.dbMask ≠ counting.dbLast := by decide

/-- B3 and B4. -/
theorem witness_VerifyCommitsOrAborts :
    (st verifying).rst = false ∧ verifying.dbMode = .verify ∧
    0b110 &&& verifying.dbMask = verifying.dbLast ∧
    0b100 &&& verifying.dbMask ≠ verifying.dbLast := by decide

/-- B5 and B6. -/
theorem witness_DetectionInIdle :
    (st idle).rst = false ∧ idle.dbMode = .idle ∧ 0b101 &&& idle.dbMask ≠ idle.dbComm ∧
    0b111 &&& idle.dbMask = idle.dbComm := by decide

/-- B11. -/
theorem witness_CountingWaitsForThePeriodicTick :
    Block.reset.dbMode = .counting ∧
    ¬ (Block.reset.zcPhase = .debRise ∧ Block.reset.tcnt + 1 = Block.reset.zcCcr) := by decide

/-- Each action's guard is met: K3, Z1, Z4, Z5 and Z6 after the counter has advanced. -/
theorem witness_ChannelActions :
    (st pulsing).rst = false ∧ pulsing.goff = true ∧ p1End.zcPhase = .armFall ∧
    p1End.zcPrev = true ∧
    (let b : Block := { z0 with zcPhase := .debFall, tcnt := 0x2BF8 }
     b.zcPhase = .debFall ∧ b.tcnt = b.zcCcr) ∧
    (let b : Block := { Block.reset with zcPhase := .armRise }
     b.zcPhase = .armRise ∧ b.zcPrev = false) ∧
    (let b : Block := { z0 with tcnt := 0x2BF8, pkv := false }
     b.zcPhase = .debRise ∧ b.tcnt = b.zcCcr ∧ b.pkv = false ∧ b.dbMode ≠ .counting) := by decide

/-- Each guard fails somewhere: the state after reset, and Z8 after its measurement. -/
theorem witness_ActionsAwaitTheirGuards :
    Block.reset.goff = false ∧
    ¬ (Block.reset.zcPhase = .armFall ∧ Block.reset.zcPrev = true) ∧
    ¬ (Block.reset.zcPhase = .debFall ∧ Block.reset.tcnt = Block.reset.zcCcr) ∧
    ¬ (Block.reset.armed = true ∧ Block.reset.tcnt = Block.reset.tcmp) ∧
    ¬ (Block.reset.dbMode = .verify ∧ Block.reset.pins &&& Block.reset.dbMask = Block.reset.dbLast) ∧
    ¬ (idle.dbMode = .idle ∧ idle.pins &&& idle.dbMask ≠ idle.dbComm) ∧
    (measurePeriod z8).armed = true ∧ (measurePeriod z8).small = true := by decide

/-- A pending event that is enabled. -/
theorem witness_OutputsFollowTheState :
    let b : Block := { Block.reset with stTick := true, ctrl := 0b001 }
    b.irq = true ∧ (after (exec (.tick 7 true) (st b))).map (fun t => t.blk.irq) = some true := by
  decide

/-- EV_RESYNC disarmed, and armed one beyond the boundary (Z11), with both values of TDELAY. -/
theorem witness_MeasurementActions :
    z0.armed = false ∧ z0.tdelay = 0 ∧ z0.gate = false ∧
    ({ z0 with tdelay := 0x0BB8 } : Block).tdelay ≠ 0 ∧
    (let b : Block := { measurePeriod z8 with zct := 0x4EC6, gate := true }
     let q := b.halfper >>> 1
     let d0 := (b.peak + q + b.halfper - b.zct).toInt
     b.armed = true ∧ b.tdelay ≠ 0 ∧
     ¬ (d0.natAbs ≤ q.toNat ∨ (d0 - (b.halfper.toNat : Int)).natAbs ≤ q.toNat) ∧
     ({ b with tdelay := 0 } : Block).tdelay = 0) := by decide

theorem witness_TriacActions :
    let b : Block := { t2 with tcnt := 0x3FAB, tdelay := Config.triacMinDelay }
    b.armed = true ∧ b.tcnt = b.tcmp ∧
    (Config.triacMinDelay < ({ b with delayOff := true } : Block).tdelay ∨
      ({ b with delayOff := true } : Block).delayOff = true) ∧
    ¬ (Config.triacMinDelay < b.tdelay ∨ b.delayOff = true) := by
  refine ⟨rfl, rfl, .inr rfl, ?_⟩
  rintro (h | h)
  · exact absurd h (BitVec.lt_irrefl _)
  · exact absurd h (by decide)

/-- B1, B2, B3, B4 and B5. -/
theorem witness_FilterActions :
    (let b : Block := { counting with pins := 0b110 }
     b.pins &&& b.dbMask = b.dbLast) ∧
    counting.pins &&& counting.dbMask ≠ counting.dbLast ∧ verifying.dbMode = .verify ∧
    (let b : Block := { verifying with pins := 0b110 }
     b.pins &&& b.dbMask = b.dbLast) ∧
    verifying.pins &&& verifying.dbMask ≠ verifying.dbLast ∧ idle.dbMode = .idle ∧
    (let b : Block := { idle with pins := 0b101 }
     b.pins &&& b.dbMask ≠ b.dbComm) := by decide

/-- The last periodic tick of a count (k = 1, B1) with reads, writes and ticks after the commit; the first
one of a count (k = 5); and the bare steps from reset. -/
theorem witness_FiveStableStepsReachVerify :
    ((st counting).rst = false ∧ counting.dbMode = .counting ∧
      counting.dbCnt = BitVec.ofNat 3 1 ∧ NoReset [.rdStatus false, .wrStatus false 7] ∧
      (periodicSamples [.rdStatus false, .wrStatus false 7] (st counting)).length + 1 = 1 ∧
      (after (execAll [.rdStatus false, .wrStatus false 7] (st counting))).map
        (fun t => t.blk.periodicDue) = some true ∧
      0b110 &&& counting.dbMask = counting.dbLast ∧
      NoReset [.tick 0b110 true, .wrCtrl false 7, .tick 0b110 false]) ∧
    (let first := st { counting with dbCnt := 5 }
     first.blk.dbCnt = BitVec.ofNat 3 5 ∧ NoReset [.tick 0b110 true] ∧
      periodicSamples [.tick 0b110 true] first = [0b110] ∧
      0b110 &&& first.blk.dbMask = first.blk.dbLast) ∧
    State.reset.rst = false ∧ Block.reset.dbMode = .counting ∧ Block.reset.dbCnt = 5 ∧
    Block.reset.pins &&& Block.reset.dbMask = Block.reset.dbLast := by decide

/-- RST low is the state after reset. It is the one hypothesis of TickCountsAndSamples, of the statements
of reads and of those of writes; both values of the data of WR_TDELAY occur. -/
theorem witness_RstLow : State.reset.rst = false ∧ (st p1End).rst = false := by decide

/-- Boundary addresses of the reserved clause. -/
theorem witness_EveryReadFollowsTheRegisterMap :
    0x1C ≤ (0x1C : Addr).toNat ∧ 0x1C ≤ (0xFF : Addr).toNat ∧ ¬ 0x1C ≤ (0x1B : Addr).toNat := by
  decide

theorem witness_ReadsAreIdempotent :
    decodeWord (encodeRd 0x03) = .ok (.rdStatus true) ∧
    decodeWord (encodeRd 0x04) = .ok (.rdTcnt false) ∧
    (after (execAll [.rdStatus true, .rdTcnt false, .rdStatus true] (st p1End))).map State.rdata =
      some (some 0x04F7) := by decide

/-- The three clauses: a rising edge, a falling edge, and the line held high. -/
theorem witness_RstHoldsTheBlockInReset :
    ({ st p1End with pending := [.rst true] } : State).rst = false ∧
    ({ st p1End with rst := true } : State).rst = true ∧
    decodeWord (encodeWr 0x0A 3000) = .ok (.wrTdelay false 3000) ∧
    decodeWord (encodeRd 0x02) = .ok (.rdStatus false) := by decide

theorem witness_SnapshotProtocol :
    NoReset [.rdTcnt false, .tick 7 true, .rdPeak false] ∧
    (after (execAll [.rdTcnt false, .tick 7 true, .rdPeak false] State.reset)).isSome = true := by
  decide

/-- A falling edge has just been captured (Z1). -/
def captured : Block :=
  { Block.reset with zcPhase := .debFall, fallT := 0x07D0, tcnt := 0x07D0, zcCcr := 0x0BB8 }

theorem witness_ShortestCaptureCycle :
    (st captured).rst = false ∧ captured.zcPhase = .debFall ∧ captured.fallT = captured.tcnt ∧
    captured.zcCcr = captured.tcnt + 1000 ∧ NoReset [.tick 7 true] := by decide

theorem witness_NoMainsNoPeriodicTick :
    State.reset.rst = false ∧ Block.reset.zcPhase = .armFall ∧ Block.reset.dbMode ≠ .verify ∧
    NoReset [.tick 7 false, .rdStatus false] ∧
    NoMains Block.reset.zcPrev [.tick 7 false, .rdStatus false] := by
  refine ⟨rfl, rfl, by decide, by decide, ?_⟩
  intro pin zc h
  simp at h
  exact h.2

theorem witness_ZeroDelayNeverFires :
    Block.reset.tdelay = 0 ∧ Block.reset.armed = false ∧ Block.reset.gate = false ∧
    Block.reset.goff = false ∧
    ∀ i ∈ [Instr.tick 7 true, .wrTdelay false 0],
      i.isEvent = false ∧ ∀ a0 d, i = .wrTdelay a0 d → d = 0 := by
  refine ⟨rfl, rfl, rfl, rfl, ?_⟩
  intro i hi
  simp at hi
  rcases hi with rfl | rfl
  · exact ⟨rfl, fun _ _ h => by cases h⟩
  · refine ⟨rfl, fun _ _ h => ?_⟩
    cases h
    rfl

/-- The state right after a retry action, and a run of no tick. -/
theorem witness_RetryPulseLength :
    let b : Block := { t1 with gate := true, delayOff := true, tcmp := t1.tcnt + Config.triacExtend }
    (st b).rst = false ∧ b.zcPhase = .armFall ∧ b.armed = true ∧ b.gate = true ∧
    b.goff = false ∧ b.delayOff = true ∧ b.tcmp = b.tcnt + Config.triacExtend ∧
    NoMains b.zcPrev (ticks [(7, false)]) := by
  refine ⟨rfl, rfl, rfl, rfl, rfl, rfl, rfl, ?_⟩
  intro pin zc h
  simp [ticks] at h
  exact h.2

/-- The invariant holds of a state in the middle of a run, P1's end state with a TICK pending, and a step
is taken from there: the premise of EveryStepKeepsTheInvariant and EveryRunIsSafe. -/
theorem witness_EveryStepKeepsTheInvariant :
    let s : State := { st p1End with pending := [.code (.op 0x0000000F)] }
    s.Inv ∧ (after (step s)).isSome = true := by
  refine ⟨⟨⟨?_, ?_, ?_, ?_, ?_, ?_, ?_, ?_, ?_, ?_, ?_, ?_, ?_, ?_, ?_, ?_, ?_, ?_, ?_⟩, ?_, ?_⟩, ?_⟩ <;>
    decide

/-- A periodic tick that sets STATUS.TICK, from a state with the invariant. -/
theorem witness_CommitNeverWithAPeriodicTick :
    let b : Block := { z0 with zcCcr := 0x2AF8, tcnt := 0x2AF7 }
    b.Inv ∧ b.stTick = false ∧ b.stDbc = false ∧
    (after (exec (.tick 7 true) (st b))).map (fun t => (t.blk.stTick, t.blk.stDbc)) =
      some (true, false) := by
  refine ⟨⟨?_, ?_, ?_, ?_, ?_, ?_, ?_, ?_, ?_, ?_, ?_, ?_, ?_, ?_, ?_, ?_, ?_, ?_, ?_⟩, ?_, ?_, ?_⟩ <;>
    decide

end Sys2Proof.Tests
end

section
/-! SUPPORT. The three outputs (10_state.md R43, R44): IRQ against the STATUS and CTRL words, and the
operations that keep every pending event. -/

namespace Sys2Proof.Machine

/-! ## IRQ at one point between operations -/

/-- IRQ by the elements: some event is pending and enabled (10_state.md R44). -/
theorem irq_iff (b : Block) :
    b.irq = true ↔
      (b.stTick = true ∧ b.ctrl.getLsbD 0 = true) ∨ (b.stDbc = true ∧ b.ctrl.getLsbD 1 = true) ∨
        (b.stZupd = true ∧ b.ctrl.getLsbD 2 = true) := by
  simp [Block.irq, Block.tickIe, Block.dbcIe, Block.zupdIe, or_assoc]

/-- A word and a 3-bit mask share a 1 exactly at one of the mask's three bits. -/
theorem and_mask3_ne_zero_iff (w : Word) (m : BitVec 3) :
    w &&& m.setWidth 16 ≠ 0 ↔
      (w.getLsbD 0 = true ∧ m.getLsbD 0 = true) ∨ (w.getLsbD 1 = true ∧ m.getLsbD 1 = true) ∨
        (w.getLsbD 2 = true ∧ m.getLsbD 2 = true) := by
  constructor
  · intro h
    by_contra hn
    refine h (BitVec.eq_of_getLsbD_eq fun k hk => ?_)
    match k with
    | 0 | 1 | 2 => simp_all
    | k + 3 => simp
  · rintro (⟨hw, hm⟩ | ⟨hw, hm⟩ | ⟨hw, hm⟩) h0
    · simpa [-BitVec.getLsbD_eq_getElem, hw, hm] using congrArg (BitVec.getLsbD · 0) h0
    · simpa [-BitVec.getLsbD_eq_getElem, hw, hm] using congrArg (BitVec.getLsbD · 1) h0
    · simpa [-BitVec.getLsbD_eq_getElem, hw, hm] using congrArg (BitVec.getLsbD · 2) h0

/-- IRQ by the register words: STATUS[2:0] and CTRL[2:0] share a 1 (10_state.md R44, R46). -/
theorem irq_iff_words (b : Block) :
    b.irq = true ↔ b.statusWord &&& b.ctrl.setWidth 16 ≠ 0 := by
  obtain ⟨hTick, hDbc, hZupd, -⟩ := statusWord_bits b
  rw [and_mask3_ne_zero_iff, hTick, hDbc, hZupd, irq_iff]

/-! ## What keeps the pending events -/

/-- From `b` to `c` no pending event is lost and the enables stay. -/
structure Block.EventsKept (b c : Block) : Prop where
  ctrl : c.ctrl = b.ctrl
  stTick : b.stTick = true → c.stTick = true
  stDbc : b.stDbc = true → c.stDbc = true
  stZupd : b.stZupd = true → c.stZupd = true

theorem Block.EventsKept.refl (b : Block) : b.EventsKept b := ⟨rfl, id, id, id⟩

theorem Block.EventsKept.trans {b c d : Block} (h : b.EventsKept c) (k : c.EventsKept d) :
    b.EventsKept d :=
  ⟨k.ctrl.trans h.ctrl, k.stTick ∘ h.stTick, k.stDbc ∘ h.stDbc, k.stZupd ∘ h.stZupd⟩

/-- Where neither the events nor the enables are written; the frame lemmas of the update show it. -/
theorem Block.EventsKept.of_unwritten {b c : Block} (hctrl : c.ctrl = b.ctrl := by simp)
    (htick : c.stTick = b.stTick := by simp) (hdbc : c.stDbc = b.stDbc := by simp)
    (hzupd : c.stZupd = b.stZupd := by simp) : b.EventsKept c :=
  ⟨hctrl, htick.trans, hdbc.trans, hzupd.trans⟩

/-- Then IRQ stays high (10_state.md R44). -/
theorem Block.EventsKept.irq {b c : Block} (h : b.EventsKept c) (hb : b.irq = true) :
    c.irq = true := by
  rw [irq_iff] at hb ⊢
  rw [h.ctrl]
  exact hb.imp (.imp_left h.stTick) (.imp (.imp_left h.stDbc) (.imp_left h.stZupd))

section
open Block.EventsKept

/-! ## The actions that set an event -/

theorem resync_eventsKept (b : Block) : b.EventsKept (resync b) where
  ctrl := by simp
  stTick := by simp
  stDbc := by simp
  stZupd := by
    unfold resync
    split <;> simp

theorem periodicCompute_eventsKept (b : Block) : b.EventsKept (periodicCompute b) := by
  unfold periodicCompute
  split
  · have measured : b.EventsKept (measurePeriod b) := of_unwritten
    exact measured.trans (resync_eventsKept _)
  · exact of_unwritten

theorem periodicTick_eventsKept (p : Config.Params) (m : DbMode) (b : Block) :
    b.EventsKept (periodicTick p m b) where
  ctrl := by simp
  stTick := fun _ => rfl
  stDbc := by simp
  stZupd := by
    have computed := (periodicCompute_eventsKept b).stZupd
    unfold periodicTick
    dsimp only
    split <;> simpa using computed

theorem expireRise_eventsKept (p : Config.Params) (m : DbMode) (b : Block) :
    b.EventsKept (expireRise p m b) := by
  unfold expireRise
  split
  · have rearmed : b.EventsKept { b with zcPhase := .armFall } := of_unwritten
    exact rearmed.trans (periodicTick_eventsKept p m _)
  · exact refl b

theorem commit_eventsKept (m : DbMode) (b : Block) : b.EventsKept (commit m b) where
  ctrl := by simp
  stTick := by simp
  stDbc := by
    unfold commit
    split <;> simp
  stZupd := by simp

/-! ## The sub-steps of a tick, and the tick -/

theorem zcAction_eventsKept (p : Config.Params) (zc : Bool) (m : DbMode) (b : Block) :
    b.EventsKept (zcAction p zc m b) := by
  unfold zcAction
  cases b.zcPhase with
  | armFall | debFall | armRise => exact of_unwritten
  | debRise => exact expireRise_eventsKept p m b

theorem zcChannel_eventsKept (p : Config.Params) (zc : Bool) (m : DbMode) (b : Block) :
    b.EventsKept (zcChannel p zc m b) :=
  (zcAction_eventsKept p zc m b).trans (of_unwritten rfl rfl rfl rfl)

theorem debounceTail_eventsKept (p : Config.Params) (m : DbMode) (b : Block) :
    b.EventsKept (debounceTail p m b) := by
  unfold debounceTail
  cases m with
  | idle => exact of_unwritten
  | counting => exact refl b
  | verify =>
    dsimp only
    split
    · exact commit_eventsKept .verify b
    · exact of_unwritten

theorem tick_eventsKept (p : Config.Params) (pin : BitVec 3) (zc : Bool) (b : Block) :
    b.EventsKept (tick p pin zc b) := by
  have fired : b.EventsKept (beforeZc p pin b) := of_unwritten
  exact (fired.trans (zcChannel_eventsKept p zc b.dbMode _)).trans
    (debounceTail_eventsKept p b.dbMode _)

/-! ## The operations -/

/-- An internal action is its effect, or nothing while RST is high. -/
theorem internalAction_eventsKept {f : Block → Block} {s t : State}
    (hf : s.blk.EventsKept (f s.blk)) (h : internalAction f s = .next t) :
    s.blk.EventsKept t.blk := by
  cases h
  dsimp only
  split
  · exact refl s.blk
  · exact hf

/-- So is a host write. -/
theorem hostWrite_eventsKept {f : Block → Block} {s t : State}
    (hf : s.blk.EventsKept (f s.blk)) (h : hostWrite f s = .next t) :
    s.blk.EventsKept t.blk :=
  internalAction_eventsKept hf h

/-- Every operation with RST low keeps the pending events and the enables, but for RESET, a WR to STATUS
and a WR to CTRL (10_state.md R41, R42). -/
theorem exec_eventsKept {i : Instr} {s t : State} (hr : s.rst = false) (h : exec i s = .next t) :
    s.blk.EventsKept t.blk ∨ i = .reset ∨ ∃ a0 d, i = .wrStatus a0 d ∨ i = .wrCtrl a0 d := by
  cases i with
  | reset => exact .inr (.inl rfl)
  | wrStatus a0 d => exact .inr (.inr ⟨a0, d, .inl rfl⟩)
  | wrCtrl a0 d => exact .inr (.inr ⟨a0, d, .inr rfl⟩)
  | tick pin zc =>
    rw [exec_tick hr] at h
    cases h
    exact .inl (tick_eventsKept Config.params pin zc s.blk)
  | rdCtrl | rdStatus | rdTcnt | rdHalfper | rdZct | rdTdelay | rdTcmp | rdPeak | rdFallt | rdRiset
  | rdZcccr | rdDbmask | rdDbstate | rdPins | rdRsvd =>
    cases h
    exact .inl (refl s.blk)
  | wrTcnt | wrHalfper | wrZct | wrTdelay | wrTcmp | wrPeak | wrFallt | wrRiset | wrZcccr | wrDbmask
  | wrDbstate | wrPins | wrRsvd => exact .inl (hostWrite_eventsKept of_unwritten h)
  | evPtick => exact .inl (internalAction_eventsKept (expireRise_eventsKept _ _ _) h)
  | evResync => exact .inl (internalAction_eventsKept (resync_eventsKept _) h)
  | evCommit => exact .inl (internalAction_eventsKept (commit_eventsKept _ _) h)
  | evGoff | evFall | evFdeb | evRise | evFirst | evMeasure | evArm | evFire | evNormal | evRetry
  | evDbstep | evAbort | evDetect => exact .inl (internalAction_eventsKept of_unwritten h)

end

end Sys2Proof.Machine

namespace Sys2Proof

open Machine

/-- Settles O48: IRQ is read off the STATUS and CTRL bits, and every operation but RESET, WR_STATUS and
WR_CTRL keeps those bits. -/
theorem outputsFollowTheState : Obligations.OutputsFollowTheState := by
  unfold Obligations.OutputsFollowTheState
  refine ⟨fun b => ⟨irq_iff b, irq_iff_words b, rfl, rfl⟩, fun i s t hr h hirq => ?_⟩
  exact (exec_eventsKept hr h).imp_left fun kept => kept.irq hirq

end Sys2Proof
end

section
/-! SUPPORT. When an operation word is refused (30_encoding.md R88), and what a step does with a code. -/

namespace Sys2Proof

/-- The reserved bits of each of the four formats (30_encoding.md R82 to R85). -/
theorem reservedClear_iff (w : OpWord) :
    reservedClear w = true ↔
      (opField w = 0 → w.extractLsb' 4 26 = 0) ∧
      (opField w = 1 → w.extractLsb' 24 6 = 0 ∧ w.extractLsb' 0 16 = 0) ∧
      (opField w = 2 → w.extractLsb' 24 6 = 0) ∧
      (opField w = 3 → w.extractLsb' 0 30 = 0) := by
  unfold reservedClear
  obtain ⟨-, format⟩ | ⟨-, format⟩ | ⟨-, format⟩ | ⟨-, format⟩ := opField_cases w <;>
    simp [format]

/-- A word whose reserved bits are 0 is an instruction: no format has an unused code. -/
theorem decodeWord_of_reservedClear {w : OpWord} (clear : reservedClear w = true) :
    ∃ i, decodeWord w = .ok i := by
  unfold decodeWord
  rw [if_pos clear]
  split <;> exact ⟨_, rfl⟩

/-- Any other word is ill-formed (30_encoding.md R88). -/
theorem decodeWord_of_not_reservedClear {w : OpWord} (set : ¬ reservedClear w = true) :
    decodeWord w = .error .reservedBitsSet :=
  if_neg set

namespace Machine

/-- A pending code is taken off the list and run. -/
theorem step_code {s : State} {c : Code} {rest : List Input} (h : s.pending = .code c :: rest) :
    step s = runCode c { s with pending := rest } := by
  unfold step takeInput
  rw [h]
  rfl

/-- A code that decodes runs its instruction. -/
theorem runCode_of_ok {c : Code} {i : Instr} (h : decode c = .ok i) (s : State) :
    runCode c s = exec i s := by
  unfold runCode
  rw [h]

/-- A code that does not decode is refused by the decoder's reason. -/
theorem runCode_of_error {c : Code} {e : DecodeError} (h : decode c = .error e) (s : State) :
    runCode c s = .refused (refusalOf e) := by
  unfold runCode
  rw [h]

end Machine

open Machine

/-- Settles O3: the statement's four bit conditions are the decoder's own check, a word that passes it is
an instruction, and every instruction has a next state. -/
theorem reservedBitsAreRefused : Obligations.ReservedBitsAreRefused := by
  unfold Obligations.ReservedBitsAreRefused
  intro s w rest pending reservedZero
  have clear_iff : reservedClear w = true ↔ reservedZero := reservedClear_iff w
  rw [← clear_iff, step_code pending]
  refine ⟨fun clear => ?_, fun set => ?_⟩
  · obtain ⟨i, decoded⟩ := decodeWord_of_reservedClear clear
    obtain ⟨t, next, -⟩ := exec_next i { s with pending := rest }
    exact ⟨⟨i, decoded⟩, t, (runCode_of_ok (c := .op w) decoded _).trans next⟩
  · exact runCode_of_error (c := .op w) (decodeWord_of_not_reservedClear set) _

end Sys2Proof
end

section
/-! SUPPORT. GATE and GOFF through a tick (40_tick.md R102): what the TRIAC channel leaves of them is what
the tick ends with, but for GOFF when the gate is on and a periodic tick arms. -/

namespace Sys2Proof.Machine

/-- Arming requests the end of a running pulse only, so with the gate off it leaves GOFF
(41_zero_crossing.md R134). -/
theorem arm_goff_of_gate_off {b : Block} (gateOff : b.gate = false) : (arm b).goff = b.goff := by
  unfold arm
  split <;> simp [gateOff]

theorem resync_goff_of_gate_off {b : Block} (gateOff : b.gate = false) :
    (resync b).goff = b.goff := by
  unfold resync
  split
  · exact arm_goff_of_gate_off gateOff
  · rfl

theorem periodicCompute_goff_of_gate_off {b : Block} (gateOff : b.gate = false) :
    (periodicCompute b).goff = b.goff := by
  unfold periodicCompute
  split
  · exact resync_goff_of_gate_off gateOff
  · rfl

/-- The zero-crossing channel writes GOFF through arming only (41_zero_crossing.md R125, R127). -/
theorem zcChannel_goff_of_gate_off (p : Config.Params) (zc : Bool) (m : DbMode) {b : Block}
    (gateOff : b.gate = false) : (zcChannel p zc m b).goff = b.goff := by
  by_cases periodic : b.zcPhase = .debRise ∧ b.zcExpired = true
  · obtain ⟨-, goff, -⟩ := zcChannel_of_expireRise p zc m periodic.1 periodic.2
    exact goff.trans (periodicCompute_goff_of_gate_off gateOff)
  · obtain ⟨-, -, goff, -⟩ := zcChannel_of_not_expireRise p zc m b periodic
    exact goff

/-- After a tick the gate is on where it fired in that tick, or where a pulse was running that no GOFF
ended (40_tick.md R102, R104). -/
theorem tick_gate (p : Config.Params) (pin : BitVec 3) (zc : Bool) (b : Block) :
    (tick p pin zc b).gate =
      ((b.armed && (b.tcnt + 1 == b.tcmp)) || (b.gate && !b.goff)) := by
  obtain ⟨-, -, -, gate, -⟩ := beforeZc_schedule p pin b
  simp [tick, gate]

/-- A tick that ends with the gate off leaves no GOFF pending: sub-step 2 has cleared it, and only a fire
or an arming during a pulse sets it again. -/
theorem tick_goff_of_gate_off {p : Config.Params} {pin : BitVec 3} {zc : Bool} {b : Block}
    (gateOff : (tick p pin zc b).gate = false) : (tick p pin zc b).goff = false := by
  have off : (beforeZc p pin b).gate = false := by simpa [tick] using gateOff
  obtain ⟨-, -, -, gate, goff⟩ := beforeZc_schedule p pin b
  have unfired : (b.armed && (b.tcnt + 1 == b.tcmp)) = false :=
    (Bool.or_eq_false_iff.mp (gate.symm.trans off)).1
  calc (tick p pin zc b).goff
    _ = (zcChannel p zc b.dbMode (beforeZc p pin b)).goff := by simp [tick]
    _ = (beforeZc p pin b).goff := zcChannel_goff_of_gate_off p zc b.dbMode off
    _ = false := by rw [goff, unfired, Bool.false_and]

end Sys2Proof.Machine

namespace Sys2Proof

open Machine

/-- Settles O17: with GOFF set the old pulse ends in sub-step 2, so the tick ends with the gate on exactly
when it fires, and with GOFF clear when it does not. -/
theorem gatePulseEndsAtTheNextTick : Obligations.GatePulseEndsAtTheNextTick := by
  unfold Obligations.GatePulseEndsAtTheNextTick
  intro s pin zc rstLow goff
  have gate_iff : (tick Config.params pin zc s.blk).gate = true ↔
      s.blk.armed = true ∧ s.blk.tcnt + 1 = s.blk.tcmp := by
    simp [tick_gate, goff]
  refine ⟨_, exec_tick rstLow pin zc, fun noMatch => ?_, gate_iff.mpr⟩
  have gateOff : (tick Config.params pin zc s.blk).gate = false :=
    Bool.eq_false_iff.mpr (mt gate_iff.mp noMatch)
  exact ⟨gateOff, tick_goff_of_gate_off gateOff⟩

end Sys2Proof
end

section
/-! SUPPORT. The zero-crossing channel through a tick (41_zero_crossing.md): its action in each phase, the
tick in which none is due, and the periodic tick. -/

namespace Sys2Proof.Machine

/-! ## The action of each phase -/

/-- The falling edge of ARM_FALL is captured (41_zero_crossing.md R121). -/
theorem zcAction_of_fall (p : Config.Params) (zc : Bool) (m : DbMode) {b : Block}
    (phase : b.zcPhase = .armFall) (edge : b.fall zc = true) :
    zcAction p zc m b =
      { b with fallT := b.tcnt, zcCcr := b.tcnt + p.debFall, zcPhase := .debFall } := by
  simp [zcAction, captureFall, phase, edge]

/-- The rising edge of ARM_RISE is captured (41_zero_crossing.md R123). -/
theorem zcAction_of_rise (p : Config.Params) (zc : Bool) (m : DbMode) {b : Block}
    (phase : b.zcPhase = .armRise) (edge : b.rise zc = true) :
    zcAction p zc m b =
      { b with riseT := b.tcnt, zcCcr := b.tcnt + p.debRise, zcPhase := .debRise } := by
  simp [zcAction, captureRise, phase, edge]

/-- The falling debounce expires, whatever the sample (41_zero_crossing.md R122). -/
theorem zcAction_of_expireFall (p : Config.Params) (zc : Bool) (m : DbMode) {b : Block}
    (phase : b.zcPhase = .debFall) (expired : b.zcExpired = true) :
    zcAction p zc m b = { b with zcPhase := .armRise } := by
  simp [zcAction, expireFall, phase, expired]

/-- Without the edge an ARM phase waits for, and before a debounce phase's target, there is no action
(41_zero_crossing.md R125). -/
theorem zcAction_of_none_due (p : Config.Params) {zc : Bool} (m : DbMode) {b : Block}
    (noFall : b.zcPhase = .armFall → b.fall zc = false)
    (noRise : b.zcPhase = .armRise → b.rise zc = false)
    (unexpired : b.zcPhase = .debFall ∨ b.zcPhase = .debRise → b.zcExpired = false) :
    zcAction p zc m b = b := by
  unfold zcAction
  cases phase : b.zcPhase with
  | armFall => simp [captureFall, noFall phase]
  | debFall => simp [expireFall, unexpired (.inl phase)]
  | armRise => simp [captureRise, noRise phase]
  | debRise => simp [expireRise, unexpired (.inr phase)]

/-! ## The channel in a tick -/

/-- A tick that is no periodic tick ends with the captures of its action, and measures nothing. -/
theorem tick_of_zcAction {p : Config.Params} {pin : BitVec 3} {zc : Bool} {b c : Block}
    (notPeriodic : ¬ (b.zcPhase = .debRise ∧ b.tcnt + 1 = b.zcCcr))
    (action : zcAction p zc b.dbMode (beforeZc p pin b) = c) :
    (tick p pin zc b).SameCapture c ∧ (tick p pin zc b).SameMeasurement b :=
  ⟨action ▸ tick_capture p pin zc b, (tick_of_not_periodic p pin zc b notPeriodic).1⟩

/-- A tick in which the phase allows no action keeps the captures and the measurement
(41_zero_crossing.md R125). -/
theorem tick_of_no_zcAction (p : Config.Params) (pin : BitVec 3) {zc : Bool} {b : Block}
    (noFall : b.zcPhase = .armFall → ¬ (b.zcPrev = true ∧ zc = false))
    (noRise : b.zcPhase = .armRise → ¬ (b.zcPrev = false ∧ zc = true))
    (early : b.zcPhase = .debFall ∨ b.zcPhase = .debRise → b.tcnt + 1 ≠ b.zcCcr) :
    (tick p pin zc b).SameCapture b ∧ (tick p pin zc b).SameMeasurement b := by
  have notPeriodic : ¬ (b.zcPhase = .debRise ∧ b.tcnt + 1 = b.zcCcr) :=
    fun ⟨phase, due⟩ => early (.inr phase) due
  obtain ⟨captures, measured⟩ := tick_of_zcAction notPeriodic
    (zcAction_of_none_due p b.dbMode (b := beforeZc p pin b) (by simpa using noFall)
      (by simpa using noRise) (by simpa using early))
  exact ⟨by simpa [Block.SameCapture] using captures, measured⟩

/-- The tick that samples a falling edge in ARM_FALL (41_zero_crossing.md R121). -/
theorem tick_of_fall (p : Config.Params) (pin : BitVec 3) {b : Block}
    (phase : b.zcPhase = .armFall) (high : b.zcPrev = true) :
    let t := tick p pin false b
    t.fallT = b.tcnt + 1 ∧ t.zcCcr = b.tcnt + 1 + p.debFall ∧ t.zcPhase = .debFall ∧
      t.riseT = b.riseT ∧ t.SameMeasurement b := by
  obtain ⟨⟨zcPhase, fallT, riseT, zcCcr⟩, measured⟩ := tick_of_zcAction (by simp [phase])
    (zcAction_of_fall p false b.dbMode (b := beforeZc p pin b) (by simpa using phase)
      (by simpa using high))
  simp [zcPhase, fallT, riseT, zcCcr, measured]

/-- The tick that samples a rising edge in ARM_RISE (41_zero_crossing.md R123). -/
theorem tick_of_rise (p : Config.Params) (pin : BitVec 3) {b : Block}
    (phase : b.zcPhase = .armRise) (low : b.zcPrev = false) :
    let t := tick p pin true b
    t.riseT = b.tcnt + 1 ∧ t.zcCcr = b.tcnt + 1 + p.debRise ∧ t.zcPhase = .debRise ∧
      t.fallT = b.fallT ∧ t.SameMeasurement b := by
  obtain ⟨⟨zcPhase, fallT, riseT, zcCcr⟩, measured⟩ := tick_of_zcAction (by simp [phase])
    (zcAction_of_rise p true b.dbMode (b := beforeZc p pin b) (by simpa using phase)
      (by simpa using low))
  simp [zcPhase, fallT, riseT, zcCcr, measured]

/-- The tick at the target of DEB_FALL (41_zero_crossing.md R122). -/
theorem tick_of_expireFall (p : Config.Params) (pin : BitVec 3) (zc : Bool) {b : Block}
    (phase : b.zcPhase = .debFall) (due : b.tcnt + 1 = b.zcCcr) :
    let t := tick p pin zc b
    t.zcPhase = .armRise ∧ t.fallT = b.fallT ∧ t.riseT = b.riseT ∧ t.zcCcr = b.zcCcr ∧
      t.SameMeasurement b := by
  obtain ⟨⟨zcPhase, fallT, riseT, zcCcr⟩, measured⟩ := tick_of_zcAction (by simp [phase])
    (zcAction_of_expireFall p zc b.dbMode (b := beforeZc p pin b) (by simpa using phase)
      (by simpa using due))
  simp [zcPhase, fallT, riseT, zcCcr, measured]

/-! ## The periodic tick -/

/-- Sub-steps 1 to 4 write neither capture, so the peak is that of the tick's start. -/
@[simp] theorem beforeZc_newPeak (p : Config.Params) (pin : BitVec 3) (b : Block) :
    (beforeZc p pin b).newPeak = b.newPeak := by
  simp [Block.newPeak, Block.pulseWidth]

/-- Without a match the schedule reaches the zero-crossing channel as the tick found it (42_triac.md R151,
R152). -/
theorem beforeZc_sameSchedule_of_no_match (p : Config.Params) (pin : BitVec 3) {b : Block}
    (noMatch : ¬ (b.armed = true ∧ b.tcnt + 1 = b.tcmp)) : (beforeZc p pin b).SameSchedule b := by
  have unfired : (b.armed && (b.tcnt + 1 == b.tcmp)) = false := by simpa using noMatch
  obtain ⟨zct, tcmp, delayOff, -⟩ := beforeZc_schedule p pin b
  simp only [unfired, Bool.false_and, Bool.false_eq_true, if_false] at zct tcmp delayOff
  exact ⟨zct, tcmp, by simp, delayOff⟩

/-- A computation with a recorded peak measures, whether or not it then resynchronises
(41_zero_crossing.md R127, R129). -/
theorem periodicCompute_measures {b : Block} (pkv : b.pkv = true) :
    (periodicCompute b).peak = b.newPeak ∧
      (periodicCompute b).halfper = half (b.newPeak - b.peak) ∧
      (periodicCompute b).lock = true ∧ (periodicCompute b).pkv = true := by
  simp [periodicCompute, pkv, measurePeriod]

/-- A periodic tick ends in ARM_FALL with the captures kept, STATUS.TICK set, and the measurement and the
schedule as the computation on sub-step 4's block leaves them (41_zero_crossing.md R124, R127). -/
theorem tick_of_periodic (p : Config.Params) (pin : BitVec 3) (zc : Bool) {b : Block}
    (phase : b.zcPhase = .debRise) (due : b.tcnt + 1 = b.zcCcr) :
    let t := tick p pin zc b
    let c := periodicCompute (beforeZc p pin b)
    (t.zcPhase = .armFall ∧ t.fallT = b.fallT ∧ t.riseT = b.riseT ∧ t.zcCcr = b.zcCcr) ∧
      t.SameMeasurement { c with stTick := true } ∧ t.SameSchedule c := by
  obtain ⟨schedule, -, peak, pkv, halfper, lock, stZupd, stTick, zcPhase, fallT, riseT, zcCcr⟩ :=
    zcChannel_of_expireRise p zc b.dbMode (b := beforeZc p pin b) (by simpa using phase)
      (by simpa using due)
  simp only [Block.SameSchedule] at schedule
  simp [tick, Block.SameMeasurement, Block.SameSchedule, schedule, peak, pkv, halfper, lock, stZupd,
    stTick, zcPhase, fallT, riseT, zcCcr]

end Sys2Proof.Machine

namespace Sys2Proof

open Machine

/-- Settles O18: the phase's own edge is its action, and without it no action is due. -/
theorem edgesAreCapturedInArmPhases : Obligations.EdgesAreCapturedInArmPhases := by
  unfold Obligations.EdgesAreCapturedInArmPhases
  intro s pin zc rstLow
  refine ⟨_, exec_tick rstLow pin zc, ?_, ?_, ?_, ?_⟩
  · rintro phase high rfl
    exact tick_of_fall Config.params pin phase high
  · intro phase noFall
    exact tick_of_no_zcAction Config.params pin (fun _ => noFall) (by simp [phase])
      (by simp [phase])
  · rintro phase low rfl
    exact tick_of_rise Config.params pin phase low
  · intro phase noRise
    exact tick_of_no_zcAction Config.params pin (by simp [phase]) (fun _ => noRise)
      (by simp [phase])

/-- Settles O19: before the target no action is due whatever the sample; at the target the phase ends,
that of DEB_RISE in a periodic tick. -/
theorem debouncePhasesEndAtTheirTarget : Obligations.DebouncePhasesEndAtTheirTarget := by
  unfold Obligations.DebouncePhasesEndAtTheirTarget
  intro s pin zc rstLow
  refine ⟨_, exec_tick rstLow pin zc, ?_, ?_, ?_⟩
  · intro phase early
    exact tick_of_no_zcAction Config.params pin (fun arm => by simp [arm] at phase)
      (fun arm => by simp [arm] at phase) (fun _ => early)
  · exact tick_of_expireFall Config.params pin zc
  · intro phase due
    obtain ⟨⟨zcPhase, fallT, riseT, zcCcr⟩, ⟨-, -, -, -, stTick, -⟩, -⟩ :=
      tick_of_periodic Config.params pin zc phase due
    exact ⟨zcPhase, fallT, riseT, zcCcr, stTick⟩

/-- Settles O20: with PKV clear the computation of the periodic tick is the first peak alone, on the block
that the TRIAC channel left. -/
theorem firstPeriodicTickRecordsThePeak : Obligations.FirstPeriodicTickRecordsThePeak := by
  unfold Obligations.FirstPeriodicTickRecordsThePeak
  intro s pin zc rstLow phase due noPeak
  obtain ⟨-, measurement, schedule⟩ := tick_of_periodic Config.params pin zc phase due
  rw [periodicCompute_of_no_peak (by simpa using noPeak)] at measurement schedule
  obtain ⟨peak, pkv, halfper, lock, stTick, stZupd⟩ := measurement
  obtain ⟨zct, tcmp, armed, delayOff⟩ := schedule
  refine ⟨_, exec_tick rstLow pin zc, peak.trans (beforeZc_newPeak ..), pkv, stTick,
    by simpa using halfper, by simpa using lock, by simpa using stZupd, by simpa using armed,
    fun noMatch => ?_⟩
  obtain ⟨zct', tcmp', armed', delayOff'⟩ :=
    beforeZc_sameSchedule_of_no_match Config.params pin noMatch
  exact ⟨zct.trans zct', tcmp.trans tcmp', armed.trans armed', delayOff.trans delayOff'⟩

/-- Settles O21: with PKV set the computation of the periodic tick measures, and what follows the
measurement writes none of its elements. -/
theorem laterPeriodicTicksMeasure : Obligations.LaterPeriodicTicksMeasure := by
  unfold Obligations.LaterPeriodicTicksMeasure
  intro s pin zc rstLow phase due hasPeak
  obtain ⟨-, ⟨peak, pkv, halfper, lock, stTick, -⟩, -⟩ :=
    tick_of_periodic Config.params pin zc phase due
  obtain ⟨peak', halfper', lock', pkv'⟩ :=
    periodicCompute_measures (b := beforeZc Config.params pin s.blk) (by simpa using hasPeak)
  rw [beforeZc_newPeak] at peak' halfper'
  exact ⟨_, exec_tick rstLow pin zc, peak.trans peak',
    (halfper.trans halfper').trans (by simp [half, Block.newPeak, Block.pulseWidth]),
    lock.trans lock', pkv.trans pkv', stTick⟩

/-- Settles O13: the elements that every tick writes, and those that none does. -/
theorem tickCountsAndSamples : Obligations.TickCountsAndSamples := by
  unfold Obligations.TickCountsAndSamples
  intro s pin zc rstLow
  obtain ⟨tcnt, pins, zcPrev, tdelay, dbMask, ctrl⟩ := tick_frame Config.params pin zc s.blk
  exact ⟨_, exec_tick rstLow pin zc, tcnt, pins, zcPrev, ⟨tdelay, dbMask, ctrl⟩, rstLow, rfl,
    rfl⟩

end Sys2Proof
end

section
/-! SUPPORT. The debounce filter through a tick (43_debounce.md): outside COUNTING the tail finds it as
the tick did, and then commits, counts again from the top, or leaves it. -/

namespace Sys2Proof.Machine

/-! ## What the tail finds -/

/-- In a tick that did not start in COUNTING the tail finds the filter of the tick's start
(43_debounce.md R189). -/
theorem zcChannel_beforeZc_sameFilter (p : Config.Params) (pin : BitVec 3) (zc : Bool) {m : DbMode}
    (b : Block) (notCounting : m ≠ .counting) :
    (zcChannel p zc m (beforeZc p pin b)).SameFilter b := by
  have kept := zcChannel_filter_of_not_counting p zc (beforeZc p pin b) notCounting
  simpa [Block.SameFilter, Block.SameCommit] using kept

/-! ## The tick in VERIFY and in IDLE -/

/-- The verify succeeds: DB_LAST becomes the committed value (43_debounce.md R186). -/
theorem tick_of_commit (p : Config.Params) (pin : BitVec 3) (zc : Bool) {b : Block}
    (mode : b.dbMode = .verify) (still : pin &&& b.dbMask = b.dbLast) :
    let t := tick p pin zc b
    t.dbchg = decide (b.dbComm ≠ b.dbLast) ∧ t.dbComm = b.dbLast ∧ t.dbv = true ∧
      t.dbMode = .idle ∧ t.stDbc = true ∧ t.dbLast = b.dbLast ∧ t.dbCnt = b.dbCnt := by
  obtain ⟨-, dbCnt, dbLast, dbComm, -⟩ :=
    zcChannel_beforeZc_sameFilter p pin zc (m := .verify) b (by decide)
  have sample := (zcChannel_masked p pin zc .verify b).trans (still.trans dbLast.symm)
  unfold tick
  rw [mode, debounceTail_of_commit p sample]
  exact ⟨by rw [dbComm, dbLast, decide_not]; rfl, dbLast, rfl, rfl, rfl, dbLast, dbCnt⟩

/-- The count starts again on the sample of this tick, and what a commit shows stays: how an abort and a
detection both end (43_debounce.md R187, R188). -/
def Block.RestartedOn (p : Config.Params) (v : BitVec 3) (b t : Block) : Prop :=
  t.dbMode = .counting ∧ t.dbCnt = p.debounceLen ∧ t.dbLast = v ∧ t.SameCommit b

/-- A restart from a block that shows what `b` does. -/
theorem restartCount_restartedOn (p : Config.Params) (v : BitVec 3) {b c : Block}
    (shown : c.SameCommit b) : b.RestartedOn p v (restartCount p v c) :=
  ⟨rfl, rfl, rfl, shown⟩

/-- The verify fails (43_debounce.md R187). -/
theorem tick_of_abort (p : Config.Params) (pin : BitVec 3) (zc : Bool) {b : Block}
    (mode : b.dbMode = .verify) (moved : pin &&& b.dbMask ≠ b.dbLast) :
    b.RestartedOn p (pin &&& b.dbMask) (tick p pin zc b) := by
  obtain ⟨-, -, dbLast, shown⟩ :=
    zcChannel_beforeZc_sameFilter p pin zc (m := .verify) b (by decide)
  have sample := zcChannel_masked p pin zc .verify b
  unfold tick
  rw [mode, debounceTail_of_abort p (by rwa [sample, dbLast]), sample]
  exact restartCount_restartedOn p _ shown

/-- The sample of a tick in IDLE differs from the committed value (43_debounce.md R188). -/
theorem tick_of_detect (p : Config.Params) (pin : BitVec 3) (zc : Bool) {b : Block}
    (mode : b.dbMode = .idle) (changed : pin &&& b.dbMask ≠ b.dbComm) :
    b.RestartedOn p (pin &&& b.dbMask) (tick p pin zc b) := by
  obtain ⟨-, -, -, shown⟩ :=
    zcChannel_beforeZc_sameFilter p pin zc (m := .idle) b (by decide)
  have ⟨dbComm, _⟩ := shown
  have sample := zcChannel_masked p pin zc .idle b
  unfold tick
  rw [mode, debounceTail_of_detect p (by rwa [sample, dbComm]), sample]
  exact restartCount_restartedOn p _ shown

/-- The sample of a tick in IDLE is the committed value, so nothing is detected
(43_debounce.md R188). -/
theorem tick_of_still (p : Config.Params) (pin : BitVec 3) (zc : Bool) {b : Block}
    (mode : b.dbMode = .idle) (still : pin &&& b.dbMask = b.dbComm) :
    (tick p pin zc b).SameFilter b := by
  have kept := zcChannel_beforeZc_sameFilter p pin zc (m := .idle) b (by decide)
  have ⟨_, _, _, dbComm, _⟩ := kept
  have sample := (zcChannel_masked p pin zc .idle b).trans (still.trans dbComm.symm)
  unfold tick
  rw [mode, debounceTail_of_still p sample]
  exact kept

end Sys2Proof.Machine

namespace Sys2Proof

open Machine

/-- Settles O27: the tail of a tick that starts in VERIFY compares the new sample with the DB_LAST of
the tick's start, and commits or restarts the count. -/
theorem verifyCommitsOrAborts : Obligations.VerifyCommitsOrAborts := by
  unfold Obligations.VerifyCommitsOrAborts
  intro s pin zc rstLow mode
  exact ⟨_, exec_tick rstLow pin zc, tick_of_commit Config.params pin zc mode,
    tick_of_abort Config.params pin zc mode⟩

/-- Settles O28: the tail of a tick that starts in IDLE compares the new sample with the committed
value, whether or not the tick was periodic. -/
theorem detectionInIdle : Obligations.DetectionInIdle := by
  unfold Obligations.DetectionInIdle
  intro s pin zc rstLow mode
  exact ⟨_, exec_tick rstLow pin zc, tick_of_detect Config.params pin zc mode,
    tick_of_still Config.params pin zc mode⟩

end Sys2Proof
end

section
/-! SUPPORT. What RD_STATUS returns, with the two sequencers as it shows them (10_state.md R46), and
what each write of the host leaves behind (44_host_bus.md R211 to R241). -/

namespace Sys2Proof.Machine

/-! ## What RD_STATUS returns -/

/-- A host read with RST low returns the view of the block and changes no element
(44_host_bus.md R210). -/
theorem hostRead_of_rst_low {s : State} (h : s.rst = false) (view : Block → Word) :
    hostRead view s = .next { s with rdata := some (view s.blk) } := by
  rw [hostRead, visible_of_rst_low h]

/-- STATUS[11]: an edge debounce is running (10_state.md R23, R46). -/
theorem ZcPhase.bits_getLsbD_zero (p : ZcPhase) :
    p.bits.getLsbD 0 = decide (p = .debFall ∨ p = .debRise) := by
  cases p <;> rfl

/-- STATUS[12]: the rising half of the sequence (10_state.md R23, R46). -/
theorem ZcPhase.bits_getLsbD_one (p : ZcPhase) :
    p.bits.getLsbD 1 = decide (p = .armRise ∨ p = .debRise) := by
  cases p <;> rfl

/-- STATUS[13] (10_state.md R35, R46). -/
theorem DbMode.bits_getLsbD_zero (m : DbMode) : m.bits.getLsbD 0 = decide (m = .counting) := by
  cases m <;> rfl

/-- STATUS[14] (10_state.md R35, R46). -/
theorem DbMode.bits_getLsbD_one (m : DbMode) : m.bits.getLsbD 1 = decide (m = .verify) := by
  cases m <;> rfl

/-! ## The writes -/

/-- CTRL takes the low three bits of the data (44_host_bus.md R213). -/
theorem setCtrl_eq (d : Word) (b : Block) : setCtrl d b = { b with ctrl := d.setWidth 3 } := by
  rw [setCtrl, low3_eq]

/-- IRQ under new enables (10_state.md R44; 44_host_bus.md R213). -/
theorem irq_of_enables (d : Word) (b : Block) :
    ({ b with ctrl := d.setWidth 3 } : Block).irq =
      (b.stTick && d.getLsbD 0 || b.stDbc && d.getLsbD 1 || b.stZupd && d.getLsbD 2) := by
  simp [Block.irq, Block.tickIe, Block.dbcIe, Block.zupdIe]

/-- Write-1-to-clear of one flag: a 1 clears it and a 0 leaves it (44_host_bus.md R215). -/
theorem clearFlag_eq (flag one : Bool) : (flag && !one) = if one then false else flag := by
  cases one with
  | false => exact Bool.and_true flag
  | true => exact Bool.and_false flag

/-- The three flags after a write of STATUS (44_host_bus.md R215). -/
theorem clearEvents_eq (d : Word) (b : Block) :
    b.clearEvents d =
      { b with
        stTick := if d.getLsbD 0 then false else b.stTick
        stDbc := if d.getLsbD 1 then false else b.stDbc
        stZupd := if d.getLsbD 2 then false else b.stZupd } := by
  simp only [Block.clearEvents, clearFlag_eq]

/-- A nonzero delay leaves the driver as it is (44_host_bus.md R223). -/
theorem setTdelay_of_ne_zero {d : Word} (nonzero : d ≠ 0) (b : Block) :
    setTdelay d b = { b with tdelay := d } :=
  if_neg nonzero

/-- A delay of 0 disables the driver (44_host_bus.md R223). -/
theorem setTdelay_zero (b : Block) : setTdelay 0 b = disableDriver { b with tdelay := 0 } := by
  simp only [setTdelay, if_true]

/-- The mask, and the filter's values under it (44_host_bus.md R235). -/
theorem setDbmask_eq (d : Word) (b : Block) :
    setDbmask d b =
      { b with
        dbMask := d.setWidth 3
        dbComm := b.dbComm &&& d.setWidth 3
        dbLast := b.dbLast &&& d.setWidth 3 } := by
  rw [setDbmask, low3_eq]

/-- An ignored write changes no element at either level of RST (44_host_bus.md R211;
70_reset_and_hazards.md R281). -/
theorem hostWrite_ignoreWrite (s : State) :
    hostWrite ignoreWrite s = .next { s with rdata := none } := by
  simp only [hostWrite, ignoreWrite, ite_self]

end Sys2Proof.Machine

namespace Sys2Proof

open Machine

/-- Settles O39: twelve bits of STATUS are elements of their own, and the other four are the two
sequencers, decoded. -/
theorem statusReadLayout : Obligations.StatusReadLayout := by
  unfold Obligations.StatusReadLayout
  intro s a0 rstLow
  obtain ⟨tick, dbc, zupd, dbchg, dbv, pkv, lock, armed, delayOff, gate, zcPrev, goff⟩ :=
    statusWord_bits s.blk
  obtain ⟨phase0, phase1, mode0, mode1⟩ := statusWord_sequencers s.blk
  exact ⟨_, hostRead_of_rst_low rstLow Block.statusWord, tick, dbc, zupd, dbchg, dbv, pkv, lock, armed,
    delayOff, gate, zcPrev, phase0.trans (ZcPhase.bits_getLsbD_zero _),
    phase1.trans (ZcPhase.bits_getLsbD_one _), mode0.trans (DbMode.bits_getLsbD_zero _),
    mode1.trans (DbMode.bits_getLsbD_one _), goff⟩

/-- Settles O42: the write is `setCtrl`, and IRQ, which has no state of its own, is read off the new
enables. -/
theorem writeOfCtrl : Obligations.WriteOfCtrl := by
  unfold Obligations.WriteOfCtrl
  intro s a0 d rstLow
  have written := hostWrite_of_rst_low rstLow (setCtrl d)
  rw [setCtrl_eq] at written
  exact ⟨_, written, rfl, irq_of_enables d s.blk⟩

/-- Settles O43: the write is `clearEvents`, flag by flag. -/
theorem writeOfStatus : Obligations.WriteOfStatus := by
  unfold Obligations.WriteOfStatus
  intro s a0 d rstLow
  have written := hostWrite_of_rst_low rstLow (Block.clearEvents d)
  rwa [clearEvents_eq] at written

/-- Settles O44: the write is `setTdelay`, whose one choice is whether the data is 0. -/
theorem writeOfTdelay : Obligations.WriteOfTdelay := by
  unfold Obligations.WriteOfTdelay
  intro s a0 d rstLow
  have written := hostWrite_of_rst_low rstLow (setTdelay d)
  constructor
  · intro nonzero
    rwa [setTdelay_of_ne_zero nonzero] at written
  · rintro rfl
    rwa [setTdelay_zero] at written

/-- Settles O45: the write is `setDbmask`, which masks both of the filter's values. -/
theorem writeOfDbmask : Obligations.WriteOfDbmask := by
  unfold Obligations.WriteOfDbmask
  intro s a0 d rstLow
  have written := hostWrite_of_rst_low rstLow (setDbmask d)
  rwa [setDbmask_eq] at written

/-- Settles O46: each of the eleven is the one ignored write. -/
theorem ignoredWrites : Obligations.IgnoredWrites := by
  unfold Obligations.IgnoredWrites
  intro s a0 addr d
  have ignored := hostWrite_ignoreWrite s
  exact ⟨ignored, ignored, ignored, ignored, ignored, ignored, ignored, ignored, ignored, ignored,
    ignored⟩

end Sys2Proof
end

section
/-! SUPPORT. The reset values as the registers show them (10_state.md R45, R49), and what the RST line
does at each of its levels (70_reset_and_hazards.md R281). -/

namespace Sys2Proof.Machine

/-! ## The block at its reset values -/

/-- The outputs are low (70_reset_and_hazards.md R280). -/
theorem reset_outputs :
    Block.reset.gateOut = false ∧ Block.reset.indOut = false ∧ Block.reset.irq = false := by
  decide

/-- STATUS, DB_MASK, DBSTATE and PINS are the registers that do not reset to 0: the filter starts in
COUNTING, at five steps, with every input enabled and read as 1 (10_state.md R45). -/
theorem reset_nonzero_registers :
    readReg 0x02 Block.reset = 0x2000 ∧ readReg 0x16 Block.reset = 0x0007 ∧
      readReg 0x18 Block.reset = 0x0577 ∧ readReg 0x1A Block.reset = 0x0007 := by
  decide

/-- The other ten registers (10_state.md R45). -/
theorem reset_zero_registers :
    ∀ k ∈ [0x00, 0x04, 0x06, 0x08, 0x0A, 0x0C, 0x0E, 0x10, 0x12, 0x14],
      readReg k Block.reset = 0x0000 := by
  decide

/-! ## The RST line -/

/-- A pending level of the RST line is taken off the list and the line takes it. -/
theorem step_rst {s : State} {level : Bool} {rest : List Input}
    (h : s.pending = .rst level :: rest) :
    step s = .next (setRst level { s with pending := rest }) := by
  unfold step takeInput
  rw [h]
  rfl

/-- A rising edge applies one RESET (70_reset_and_hazards.md R281). -/
theorem setRst_rising {s : State} (h : s.rst = false) :
    setRst true s = { blk := Block.reset, rst := true, rdata := none, pending := s.pending } := by
  simp [setRst, h]

/-- When the line falls, or stays low, the elements stay (70_reset_and_hazards.md R281). -/
theorem setRst_low (s : State) : setRst false s = { s with rst := false, rdata := none } := by
  simp [setRst]

/-- While the line is high a TICK is a RESET (70_reset_and_hazards.md R281). -/
theorem exec_tick_of_rst_high {s : State} (h : s.rst = true) (pin : BitVec 3) (zc : Bool) :
    exec (.tick pin zc) s = .next { s with blk := Block.reset, rdata := none } := by
  simp [exec, execTick, clockTick, h]

/-- While the line is high a WR is ignored (70_reset_and_hazards.md R281). -/
theorem hostWrite_of_rst_high {s : State} (h : s.rst = true) (f : Block → Block) :
    hostWrite f s = .next { s with rdata := none } := by
  simp [hostWrite, h]

/-- So is every WR word, whatever its byte offset and its data. -/
theorem exec_encodedWr_of_rst_high {s : State} (h : s.rst = true) {addr : Addr} {d : Word} {i : Instr}
    (decoded : decodeWord (encodeWr addr d) = .ok i) : exec i s = .next { s with rdata := none } := by
  rw [decodeWord_encodeWr] at decoded
  cases decoded
  rw [exec_decodeWr, hostWrite_of_rst_high h]

/-- While the line is high a RD word returns the reset value of what is at its byte offset
(70_reset_and_hazards.md R281). -/
theorem exec_encodedRd_of_rst_high {s : State} (h : s.rst = true) {addr : Addr} {i : Instr}
    (decoded : decodeWord (encodeRd addr) = .ok i) :
    exec i s = .next { s with rdata := some (readReg addr Block.reset) } := by
  rw [decodeWord_encodeRd] at decoded
  cases decoded
  rw [exec_decodeRd, visible_of_rst_high h]

end Sys2Proof.Machine

namespace Sys2Proof

open Machine

/-- Settles O50: each clause is what the RST line does at one of its levels or edges, and a RD or WR word
runs as the register map's one read or write of its byte offset. -/
theorem rstHoldsTheBlockInReset : Obligations.RstHoldsTheBlockInReset := by
  unfold Obligations.RstHoldsTheBlockInReset
  refine ⟨rfl, fun s rest rises rstLow => ?_, fun s rest falls => ?_,
    fun s pin zc rstLow => exec_tick rstLow pin zc,
    fun s rstHigh => ⟨exec_tick_of_rst_high rstHigh, fun _ _ _ => exec_encodedWr_of_rst_high rstHigh,
      fun _ _ => exec_encodedRd_of_rst_high rstHigh⟩⟩
  · rw [step_rst rises, setRst_rising (s := { s with pending := rest }) rstLow]
  · rw [step_rst falls, setRst_low]

/-- Settles O49: RESET leaves the same block from every state, so a second one changes nothing, and the
outputs and registers are those of that block. -/
theorem resetOperation : Obligations.ResetOperation := by
  unfold Obligations.ResetOperation
  intro s
  obtain ⟨gateOut, indOut, irq⟩ := reset_outputs
  obtain ⟨status, dbMask, dbState, pins⟩ := reset_nonzero_registers
  exact ⟨{ s with blk := Block.reset, rdata := none }, rfl, rfl, rfl, rfl, rfl, gateOut, indOut, irq,
    status, dbMask, dbState, pins, reset_zero_registers⟩

end Sys2Proof
end

section
/-! SUPPORT. The decoder against the encoder (30_encoding.md R82 to R89): the four kinds of word that
decode, and the code of every instruction read back. -/

namespace Sys2Proof

/-! ## What decodes -/

/-- A TICK word decodes to its two operands (30_encoding.md R82). -/
theorem decodeWord_encodeTick (pin : BitVec 3) (zc : Bool) :
    decodeWord (encodeTick pin zc) = .ok (.tick pin zc) := by
  revert pin zc
  decide

/-- A word that decodes is a TICK, a RD, a WR or the RESET word, and its instruction is the one of its
format (30_encoding.md R80, R82 to R85). -/
theorem decodeWord_cases {w : OpWord} {i : Instr} (decoded : decodeWord w = .ok i) :
    (∃ pin zc, w = encodeTick pin zc ∧ i = .tick pin zc) ∨
      (∃ addr, w = encodeRd addr ∧ i = decodeRd addr) ∨
      (∃ addr d, w = encodeWr addr d ∧ i = decodeWr addr d) ∨ w = 0xC0000000 ∧ i = .reset := by
  have clear : reservedClear w = true := by
    by_contra set
    rw [decodeWord_of_not_reservedClear set] at decoded
    cases decoded
  obtain ⟨tick, rd, wr, reset⟩ := (reservedClear_iff w).mp clear
  unfold decodeWord at decoded
  rw [if_pos clear] at decoded
  obtain ⟨n, op⟩ | ⟨n, op⟩ | ⟨n, op⟩ | ⟨n, op⟩ := opField_cases w <;> rw [n] at decoded <;>
    cases decoded
  · refine .inl ⟨_, _, ?_, rfl⟩
    have fields := word_tick_fields w
    rw [op, tick op] at fields
    exact fields.symm
  · refine .inr (.inl ⟨_, ?_, rfl⟩)
    obtain ⟨high, low⟩ := rd op
    have fields := word_fields w
    rw [op, high, wdataField, low] at fields
    exact fields.symm
  · refine .inr (.inr (.inl ⟨_, _, ?_, rfl⟩))
    have fields := word_fields w
    rw [op, wr op] at fields
    exact fields.symm
  · refine .inr (.inr (.inr ⟨?_, rfl⟩))
    have fields := word_reset_fields w
    rw [op, reset op] at fields
    exact fields.symm

/-- The code of a RD at register offset `addr` decodes by the RD column. -/
theorem decode_encodeRd (addr : Addr) : decode (.op (encodeRd addr)) = .ok (decodeRd addr) :=
  decodeWord_encodeRd addr

/-- The code of a WR at register offset `addr` decodes by the WR column. -/
theorem decode_encodeWr (addr : Addr) (d : Word) :
    decode (.op (encodeWr addr d)) = .ok (decodeWr addr d) :=
  decodeWord_encodeWr addr d

/-! ## The round trips -/

/-- Settles O1: a word's format and ADDR choose the instruction that was encoded; at a reserved offset
that is so because the instruction is well formed. -/
theorem decodeOfEncode : Obligations.DecodeOfEncode := by
  unfold Obligations.DecodeOfEncode
  intro i wf
  cases i with
  | tick pin zc => exact decodeWord_encodeTick pin zc
  | rdRsvd addr =>
    exact (decode_encodeRd addr).trans (congrArg _ (decodeRd_of_reserved (of_decide_eq_true wf)))
  | wrRsvd addr d =>
    exact (decode_encodeWr addr d).trans
      (congrArg _ (decodeWr_of_reserved d (of_decide_eq_true wf)))
  | rdCtrl a0 | rdStatus a0 | rdTcnt a0 | rdHalfper a0 | rdZct a0 | rdTdelay a0 | rdTcmp a0
  | rdPeak a0 | rdFallt a0 | rdRiset a0 | rdZcccr a0 | rdDbmask a0 | rdDbstate a0 | rdPins a0 =>
    rw [encode, decode_encodeRd]
    cases a0 <;> rfl
  | wrCtrl a0 d | wrStatus a0 d | wrTcnt a0 d | wrHalfper a0 d | wrZct a0 d | wrTdelay a0 d
  | wrTcmp a0 d | wrPeak a0 d | wrFallt a0 d | wrRiset a0 d | wrZcccr a0 d | wrDbmask a0 d
  | wrDbstate a0 d | wrPins a0 d =>
    rw [encode, decode_encodeWr]
    cases a0 <;> rfl
  | reset | evGoff | evFall | evFdeb | evRise | evPtick | evFirst | evMeasure | evResync | evArm
  | evFire | evNormal | evRetry | evDbstep | evCommit | evAbort | evDetect => rfl

/-- Settles O2: each kind of word that decodes is put together again from the operands read off it. -/
theorem encodeOfDecode : Obligations.EncodeOfDecode := by
  unfold Obligations.EncodeOfDecode
  intro c i decoded
  cases c with
  | op w =>
    obtain ⟨pin, zc, rfl, rfl⟩ | ⟨addr, rfl, rfl⟩ | ⟨addr, d, rfl, rfl⟩ | ⟨rfl, rfl⟩ :=
      decodeWord_cases decoded
    · exact ⟨rfl, rfl⟩
    · exact (encode_decodeRd addr).symm
    · exact (encode_decodeWr addr d).symm
    · exact ⟨rfl, rfl⟩
  | event c =>
    obtain unknown | ⟨j, named, wf, -, code⟩ := decodeEvent_cases c
    · cases unknown.symm.trans decoded
    · cases named.symm.trans decoded
      exact ⟨wf, code⟩

/-! ## Words and events -/

/-- The named event codes are 0x01 to 0x10 (30_encoding.md R89). -/
theorem decodeEvent_ok_iff (c : EventCode) :
    (∃ i, decodeEvent c = .ok i) ↔ 1 ≤ c.toNat ∧ c.toNat ≤ 0x10 := by
  have named : ∀ c : EventCode,
      (decodeEvent c).isOk = true ↔ 1 ≤ c.toNat ∧ c.toNat ≤ 0x10 := by decide +kernel
  rw [← named c]
  cases decodeEvent c with
  | ok i => simp [Except.isOk, Except.toBool]
  | error e => simp [Except.isOk, Except.toBool]

/-- Settles O4: no format of a word has an internal action, and a code that names anything names an
action. -/
theorem wordsNeverDecodeToEvents : Obligations.WordsNeverDecodeToEvents := by
  unfold Obligations.WordsNeverDecodeToEvents
  constructor
  · intro w i decoded
    obtain ⟨pin, zc, -, rfl⟩ | ⟨addr, -, rfl⟩ | ⟨addr, d, -, rfl⟩ | ⟨-, rfl⟩ :=
      decodeWord_cases decoded
    · rfl
    · exact decodeRd_isEvent addr
    · exact decodeWr_isEvent addr d
    · rfl
  · intro c
    rw [← decodeEvent_ok_iff c]
    constructor
    · rintro ⟨i, named, -⟩
      exact ⟨i, named⟩
    · rintro ⟨i, named⟩
      obtain unknown | ⟨j, named', -, event, -⟩ := decodeEvent_cases c
      · cases unknown.symm.trans named
      · exact ⟨j, named', event⟩

/-- Settles O5: twelve closed words, decoded. -/
theorem sampleWordsDecode : Obligations.SampleWordsDecode := by
  unfold Obligations.SampleWordsDecode
  decide

end Sys2Proof
end

section
/-! SUPPORT. A step with a code pending, and stepping through a program (20_memory.md R69). -/

namespace Sys2Proof.Machine

/-- A table word that decodes is the input that stands for its instruction. -/
theorem tableInput_of_decodeTableWord {nbits w : Nat} {i : Instr}
    (decoded : decodeTableWord nbits w = some i) :
    ∃ c, tableInput nbits w = .code c ∧ decode c = .ok i := by
  unfold decodeTableWord at decoded
  refine ⟨_, rfl, ?_⟩
  split at decoded
  · split at decoded
    · rename_i ok
      cases decoded
      exact ok
    · cases decoded
  · cases decoded

/-- A pending code that decodes runs its instruction on the rest. -/
theorem step_of_decoded {s : State} {c : Code} {rest : List Input} {i : Instr}
    (pending : s.pending = .code c :: rest) (decoded : decode c = .ok i) :
    step s = exec i { s with pending := rest } :=
  (step_code pending).trans (runCode_of_ok decoded _)

/-- The first instruction of a program runs first, with the rest of the program still pending. -/
theorem step_withProgram_cons {i : Instr} (wf : WellFormed i) (is : List Instr) {s t : State}
    (run : exec i s = .next t) : step (s.withProgram (i :: is)) = .next (t.withProgram is) := by
  obtain ⟨u, run', -, pending⟩ := exec_next i s
  cases run.symm.trans run'
  rw [step_of_decoded (i := i) rfl (decodeOfEncode i wf)]
  simp only [State.withProgram, pending]
  exact exec_with_pending i _ run

end Sys2Proof.Machine

namespace Sys2Proof

open Machine

/-- Settles O6: the three ways an instruction's code comes to be the next input. -/
theorem stepRunsTheDecodedInstruction : Obligations.StepRunsTheDecodedInstruction := by
  unfold Obligations.StepRunsTheDecodedInstruction
  refine ⟨fun s c rest i => step_of_decoded,
    fun s rest i wf pending => step_of_decoded pending (decodeOfEncode i wf),
    fun s nbits w i decoded => ?_⟩
  obtain ⟨c, input, decoded⟩ := tableInput_of_decodeTableWord decoded
  exact step_of_decoded (by rw [State.withFetchWord, input]) decoded

/-- Settles O7: with nothing pending a step takes no input. -/
theorem stateIsHeldWithNothingPending : Obligations.StateIsHeldWithNothingPending := by
  unfold Obligations.StateIsHeldWithNothingPending
  intro s nothing
  unfold step takeInput
  rw [nothing]
  rfl

/-- Settles O9: every meaning answers a next state. -/
theorem everyInstructionCompletes : Obligations.EveryInstructionCompletes :=
  exec_next

/-- Settles O8, by induction on the program: a step runs its first instruction and leaves the rest of
the program in front of what was pending. -/
theorem programRunIsExecAll : Obligations.ProgramRunIsExecAll := by
  unfold Obligations.ProgramRunIsExecAll
  intro is
  induction is with
  | nil => exact fun s _ => rfl
  | cons i is ih =>
    intro s wf
    obtain ⟨wfHead, wfTail⟩ := List.forall_mem_cons.mp wf
    obtain ⟨t, run, -⟩ := exec_next i s
    have first : core.step (s.withProgram (i :: is)) = .next (t.withProgram is) :=
      step_withProgram_cons wfHead is run
    simp only [List.length_cons, Host.Core.run, first, execAll, run]
    exact ih t wfTail

/-- Settles O60: a CYCLE's tick number `k` is the one at index `k - 1` of its list. -/
theorem pseudoOperationExpansions : Obligations.PseudoOperationExpansions := by
  unfold Obligations.PseudoOperationExpansions
  refine ⟨fun n zc pins => ⟨List.length_replicate, fun i => List.eq_of_mem_replicate⟩, rfl,
    fun m => rfl, fun f w p pins => ⟨by simp [expand], fun k first last => ?_⟩⟩
  have index : k - 1 < p := by omega
  have number : k - 1 + 1 = k := by omega
  simp only [expand, List.getElem?_map, List.getElem?_range index, Option.map_some, number,
    cycleLevel, decide_not, Bool.decide_and]

end Sys2Proof
end

section
/-! SUPPORT. The host's accesses: what each RD returns, the register map at every byte offset
(10_state.md R45; 20_memory.md R60 to R67), and what a RD or WR can change. -/

namespace Sys2Proof.Machine

/-! ## The register map -/

/-- The number a DBSTATE word stands for (10_state.md R47). -/
theorem dbstateWord_toNat (b : Block) :
    b.dbstateWord.toNat = b.dbCnt.toNat * 256 + b.dbLast.toNat * 16 + b.dbComm.toNat := by
  have layout : ∀ cnt last comm : BitVec 3,
      (0#5 ++ cnt ++ 0#1 ++ last ++ 0#1 ++ comm).toNat =
        cnt.toNat * 256 + last.toNat * 16 + comm.toNat := by decide +kernel
  exact layout b.dbCnt b.dbLast b.dbComm

/-- The first reserved offset by its number (20_memory.md R67). -/
theorem firstReserved_le {addr : Addr} (reserved : 0x1C ≤ addr.toNat) : firstReserved ≤ addr :=
  BitVec.le_def.mpr reserved

/-- The register read at an offset is that of its index, whatever ADDR[0] is (20_memory.md R63). -/
theorem readReg_congr {a a' : Addr} (index : regIndex a = regIndex a') (b : Block) :
    readReg a b = readReg a' b := by
  unfold readReg
  rw [index]

/-- So is the register written (20_memory.md R63). -/
theorem writeReg_congr {a a' : Addr} (index : regIndex a = regIndex a') (d : Word) (b : Block) :
    writeReg a d b = writeReg a' d b := by
  unfold writeReg
  rw [index]

/-- An offset is a register index and ADDR[0] (30_encoding.md R86). -/
theorem regIndex_append (k : BitVec 7) (a0 : BitVec 1) : regIndex (k ++ a0) = k.toNat := by
  revert k a0
  decide +kernel

/-- ADDR[0] of an even offset and of an odd one. -/
theorem append_getLsbD_zero (k : BitVec 7) :
    (k ++ 0#1).getLsbD 0 = false ∧ (k ++ 1#1).getLsbD 0 = true := by
  constructor <;> rw [BitVec.getLsbD_append] <;> rfl

/-! ## Runs of reads -/

/-- A RD word changes no element and leaves the RST line (44_host_bus.md R210). -/
theorem exec_encodedRd {addr : Addr} {i : Instr} (decoded : decodeWord (encodeRd addr) = .ok i)
    (s : State) : exec i s = .next { s with rdata := some (readReg addr s.visible) } := by
  rw [decodeWord_encodeRd] at decoded
  cases decoded
  exact exec_decodeRd addr s

/-- Nor does a run of them (20_memory.md R66). -/
theorem execAll_reads {is : List Instr} (reads : ∀ j ∈ is, ∃ a, decodeWord (encodeRd a) = .ok j)
    {s t : State} (run : execAll is s = .next t) : t.blk = s.blk ∧ t.rst = s.rst := by
  induction is generalizing s with
  | nil =>
    cases run
    exact ⟨rfl, rfl⟩
  | cons j is ih =>
    obtain ⟨⟨a, decoded⟩, reads⟩ := List.forall_mem_cons.mp reads
    simp only [execAll, exec_encodedRd decoded] at run
    exact (ih reads run :)

/-! ## What an access changes -/

/-- A write of TDELAY keeps the driver's bits, and a write of 0 clears them (44_host_bus.md R223). -/
@[simp] theorem setTdelay_driver (d : Word) (b : Block) :
    (setTdelay d b).tdelay = d ∧ (setTdelay d b).armed = (b.armed && decide (d ≠ 0)) ∧
      (setTdelay d b).delayOff = (b.delayOff && decide (d ≠ 0)) ∧
      (setTdelay d b).gate = (b.gate && decide (d ≠ 0)) ∧
      (setTdelay d b).goff = (b.goff && decide (d ≠ 0)) := by
  by_cases zero : d = 0
  · subst zero
    rw [setTdelay_zero]
    simp [disableDriver]
  · rw [setTdelay_of_ne_zero zero]
    simp [show ¬ d = 0#16 from zero]

/-- A host write or an internal action is its effect on the block, or nothing while RST is high
(70_reset_and_hazards.md R281). -/
theorem internalAction_effect {f : Block → Block} {s t : State}
    (run : internalAction f s = .next t) : t.blk = s.blk ∨ s.rst = false ∧ t.blk = f s.blk := by
  cases run
  cases rst : s.rst with
  | false => exact .inr ⟨rfl, rfl⟩
  | true => exact .inl rfl

/-- A RD or WR changes no element, but for the WRs of the four registers with writable bits while RST is
low (44_host_bus.md R210, R211; 70_reset_and_hazards.md R281). -/
theorem hostAccess_effect {i : Instr} {s t : State} (access : isHostAccess i = true)
    (run : exec i s = .next t) :
    t.blk = s.blk ∨ s.rst = false ∧
      ((∃ a0 d, i = .wrCtrl a0 d ∧ t.blk = setCtrl d s.blk) ∨
        (∃ a0 d, i = .wrStatus a0 d ∧ t.blk = s.blk.clearEvents d) ∨
        (∃ a0 d, i = .wrTdelay a0 d ∧ t.blk = setTdelay d s.blk) ∨
        ∃ a0 d, i = .wrDbmask a0 d ∧ t.blk = setDbmask d s.blk) := by
  cases i with
  | wrCtrl a0 d =>
    exact (internalAction_effect run).imp_right (And.imp_right fun h => .inl ⟨a0, d, rfl, h⟩)
  | wrStatus a0 d =>
    exact (internalAction_effect run).imp_right (And.imp_right fun h => .inr (.inl ⟨a0, d, rfl, h⟩))
  | wrTdelay a0 d =>
    exact (internalAction_effect run).imp_right
      (And.imp_right fun h => .inr (.inr (.inl ⟨a0, d, rfl, h⟩)))
  | wrDbmask a0 d =>
    exact (internalAction_effect run).imp_right
      (And.imp_right fun h => .inr (.inr (.inr ⟨a0, d, rfl, h⟩)))
  | rdCtrl | rdStatus | rdTcnt | rdHalfper | rdZct | rdTdelay | rdTcmp | rdPeak | rdFallt | rdRiset
  | rdZcccr | rdDbmask | rdDbstate | rdPins | rdRsvd =>
    cases run
    exact .inl rfl
  | wrTcnt | wrHalfper | wrZct | wrTcmp | wrPeak | wrFallt | wrRiset | wrZcccr | wrDbstate | wrPins
  | wrRsvd =>
    cases (hostWrite_ignoreWrite s).symm.trans run
    exact .inl rfl
  | _ => cases access

end Sys2Proof.Machine

namespace Sys2Proof

open Machine

/-- Settles O10: none of the four writes with an effect writes what the statement names but to clear it. -/
theorem hostAccessLeavesTheMeasurements : Obligations.HostAccessLeavesTheMeasurements := by
  unfold Obligations.HostAccessLeavesTheMeasurements
  intro i s t access run
  obtain same | ⟨-, ⟨a0, d, -, written⟩ | ⟨a0, d, -, written⟩ | ⟨a0, d, -, written⟩ |
    ⟨a0, d, -, written⟩⟩ := hostAccess_effect access run
  · simp [same, Block.SameCapture]
  · simp [written, Block.SameCapture]
  · simp +contextual [written, Block.SameCapture, Block.clearEvents]
  · simp +contextual [written, Block.SameCapture]
  · simp [written, Block.SameCapture]

/-- Settles O37: each RD is the view of its register. -/
theorem readsOfControlAndSchedule : Obligations.ReadsOfControlAndSchedule := by
  unfold Obligations.ReadsOfControlAndSchedule
  intro s a0 addr rstLow
  have read := hostRead_of_rst_low rstLow
  exact ⟨read fun b => zext16 b.ctrl, read _, read _, read _, read _, read _, read fun _ => 0⟩

/-- Settles O38: each RD is the view of its register, and the DBSTATE word is its three fields at their
places. -/
theorem readsOfCapturesAndFilter : Obligations.ReadsOfCapturesAndFilter := by
  unfold Obligations.ReadsOfCapturesAndFilter
  intro s a0 rstLow
  have read := hostRead_of_rst_low rstLow
  exact ⟨read _, read _, read _, read _, read fun b => zext16 b.dbMask,
    read fun b => zext16 b.pins, _, read _, dbstateWord_toNat s.blk⟩

/-- Settles O40: the RD column of the opcode map and the register map agree, and the map reads the
register index only. -/
theorem everyReadFollowsTheRegisterMap : Obligations.EveryReadFollowsTheRegisterMap := by
  unfold Obligations.EveryReadFollowsTheRegisterMap
  intro addr s
  exact ⟨⟨_, decodeWord_encodeRd addr, exec_decodeRd addr s⟩,
    readReg_congr (regIndex_even addr).symm s.blk,
    fun reserved => readReg_of_reserved (firstReserved_le reserved) s.blk⟩

/-- Settles O41: what the second read returns depends on the elements and the RST line, and no read
between changes either. -/
theorem readsAreIdempotent : Obligations.ReadsAreIdempotent := by
  unfold Obligations.ReadsAreIdempotent
  intro addr i between s t u v decoded reads first run second
  cases (exec_encodedRd decoded s).symm.trans first
  cases (exec_encodedRd decoded u).symm.trans second
  obtain ⟨blk, rst⟩ := execAll_reads reads run
  exact ⟨by simp only [State.visible, blk, rst], blk⟩

/-- Settles O47: the WR column of the opcode map and the register map agree, and the map reads the
register index only. -/
theorem everyWriteFollowsTheRegisterMap : Obligations.EveryWriteFollowsTheRegisterMap := by
  unfold Obligations.EveryWriteFollowsTheRegisterMap
  intro addr d s rstLow
  exact ⟨⟨_, decodeWord_encodeWr addr d,
      (exec_decodeWr addr d s).trans (hostWrite_of_rst_low rstLow _)⟩,
    writeReg_congr (regIndex_even addr).symm d s.blk,
    fun reserved => writeReg_of_reserved (firstReserved_le reserved) d s.blk⟩

/-- Settles O51: both byte addresses of a register have its index, and ADDR[0] chooses the byte. -/
theorem byteLanesAreLittleEndian : Obligations.ByteLanesAreLittleEndian := by
  unfold Obligations.ByteLanesAreLittleEndian
  intro b k
  obtain ⟨even, odd⟩ := append_getLsbD_zero k
  have same : readReg (k ++ 1#1) b = readReg (k ++ 0#1) b :=
    readReg_congr (by rw [regIndex_append, regIndex_append]) b
  constructor
  · rw [byteLane, even]
    rfl
  · rw [byteLane, odd, same]
    rfl

end Sys2Proof
end

section
/-! SUPPORT. Over all instructions: what can change a register of the host (10_state.md R30, R39, R41),
and what can change ARMED (10_state.md R32; 42_triac.md R151). -/

namespace Sys2Proof.Machine

theorem Block.SameHost.refl (b : Block) : b.SameHost b := ⟨rfl, rfl, rfl⟩

/-- An internal action that does not write the host's registers leaves them at either level of RST. -/
theorem internalAction_sameHost {f : Block → Block} {s t : State}
    (run : internalAction f s = .next t) (kept : (f s.blk).SameHost s.blk) :
    t.blk.SameHost s.blk := by
  obtain same | ⟨-, effect⟩ := internalAction_effect run
  · rw [same]
    exact .refl s.blk
  · rwa [effect]

/-- TICK and its actions leave the registers of the host alone (10_state.md R30, R39, R41). -/
theorem exec_sameHost {i : Instr} {s t : State} (rstLow : s.rst = false)
    (block : isTick i = true ∨ i.isEvent = true) (run : exec i s = .next t) :
    t.blk.SameHost s.blk := by
  cases i with
  | tick pin zc =>
    cases (exec_tick rstLow pin zc).symm.trans run
    simp [Block.SameHost]
  | evGoff | evFall | evFdeb | evRise | evPtick | evFirst | evMeasure | evResync | evArm | evFire
  | evNormal | evRetry | evDbstep | evCommit | evAbort | evDetect =>
    exact internalAction_sameHost run (by simp [Block.SameHost])
  | _ => simp [isTick, Instr.isEvent] at block

/-- An internal action that does not write ARMED leaves it at either level of RST. -/
theorem internalAction_armed {f : Block → Block} {s t : State} (run : internalAction f s = .next t)
    (kept : (f s.blk).armed = s.blk.armed) : t.blk.armed = s.blk.armed := by
  obtain same | ⟨-, effect⟩ := internalAction_effect run
  · rw [same]
  · rwa [effect]

/-- An operation that arms where it writes ARMED: it keeps ARMED set and sets it only with TDELAY not 0
(41_zero_crossing.md R134). -/
def Block.ArmsFrom (c b : Block) : Prop :=
  (b.armed = true → c.armed = true) ∧ (c.armed = true → b.armed = true ∨ b.tdelay ≠ 0)

theorem arm_armsFrom (b : Block) : (arm b).ArmsFrom b := by
  simp +contextual [Block.ArmsFrom, armed_arm]

theorem resync_armsFrom (b : Block) : (resync b).ArmsFrom b := by
  unfold Block.ArmsFrom
  rw [armed_resync]
  simp only [Bool.or_eq_true, Bool.and_eq_true, decide_eq_true_eq]
  exact ⟨.inl, Or.imp_right And.right⟩

theorem internalAction_armsFrom {f : Block → Block} {s t : State}
    (run : internalAction f s = .next t) (arms : (f s.blk).ArmsFrom s.blk) :
    t.blk.ArmsFrom s.blk := by
  obtain same | ⟨-, effect⟩ := internalAction_effect run
  · rw [same]
    exact ⟨id, .inl⟩
  · rwa [effect]

/-- A RD or WR keeps ARMED, but for a WR of 0 to TDELAY, which clears it (44_host_bus.md R223). -/
theorem hostAccess_armed {i : Instr} {s t : State} (access : isHostAccess i = true)
    (run : exec i s = .next t) :
    t.blk.armed = s.blk.armed ∨ ∃ a0, i = .wrTdelay a0 0 ∧ t.blk.armed = false := by
  obtain same | ⟨-, ⟨a0, d, -, written⟩ | ⟨a0, d, -, written⟩ | ⟨a0, d, rfl, written⟩ |
    ⟨a0, d, -, written⟩⟩ := hostAccess_effect access run
  · exact .inl (by rw [same])
  · exact .inl (by simp [written])
  · exact .inl (by simp [written])
  · by_cases zero : d = 0
    · subst zero
      exact .inr ⟨a0, rfl, by simp [written]⟩
    · exact .inl (by simp [written, show ¬ d = 0#16 from zero])
  · exact .inl (by simp [written])

/-- What an instruction does to ARMED: RESET and a WR of 0 to TDELAY clear it, a TICK, a periodic tick, a
resynchronisation and an arming may set it, and nothing else writes it (42_triac.md R151). -/
theorem exec_armed {i : Instr} {s t : State} (rstLow : s.rst = false) (run : exec i s = .next t) :
    t.blk.armed = s.blk.armed ∨ ((i = .reset ∨ ∃ a0, i = .wrTdelay a0 0) ∧ t.blk.armed = false) ∨
      ((isTick i = true ∨ i = .evPtick ∨ i = .evResync ∨ i = .evArm) ∧ t.blk.ArmsFrom s.blk) := by
  cases i with
  | tick pin zc =>
    cases (exec_tick rstLow pin zc).symm.trans run
    exact .inr (.inr ⟨.inl rfl, armed_tick Config.params pin zc s.blk⟩)
  | evPtick =>
    exact .inr (.inr ⟨.inr (.inl rfl),
      internalAction_armsFrom run (armed_expireRise Config.params _ _)⟩)
  | evResync =>
    exact .inr (.inr ⟨.inr (.inr (.inl rfl)), internalAction_armsFrom run (resync_armsFrom _)⟩)
  | evArm =>
    exact .inr (.inr ⟨.inr (.inr (.inr rfl)), internalAction_armsFrom run (arm_armsFrom _)⟩)
  | evGoff | evFall | evFdeb | evRise | evFirst | evMeasure | evFire | evNormal | evRetry | evDbstep
  | evCommit | evAbort | evDetect => exact .inl (internalAction_armed run (by simp))
  | reset =>
    cases run
    exact .inr (.inl ⟨.inl rfl, rfl⟩)
  | _ =>
    exact (hostAccess_armed rfl run).imp_right fun ⟨a0, write, cleared⟩ =>
      .inl ⟨.inr ⟨a0, write⟩, cleared⟩

end Sys2Proof.Machine

namespace Sys2Proof

open Machine

/-- Settles O11: a TICK and its actions write none of the three, and of the host's writes each is written
by its own. -/
theorem onlyTheHostWritesItsRegisters : Obligations.OnlyTheHostWritesItsRegisters := by
  unfold Obligations.OnlyTheHostWritesItsRegisters
  intro i s t rstLow notReset run
  by_cases event : i.isEvent = true
  · obtain ⟨tdelay, dbMask, ctrl⟩ := exec_sameHost rstLow (.inr event) run
    exact ⟨absurd ctrl, absurd tdelay, absurd dbMask⟩
  obtain ⟨pin, zc, rfl⟩ | ⟨access, -⟩ := tick_or_hostAccess ⟨notReset, Bool.eq_false_iff.mpr event⟩
  · obtain ⟨tdelay, dbMask, ctrl⟩ := exec_sameHost rstLow (.inl rfl) run
    exact ⟨absurd ctrl, absurd tdelay, absurd dbMask⟩
  obtain same | ⟨-, ⟨a0, d, rfl, written⟩ | ⟨a0, d, -, written⟩ | ⟨a0, d, rfl, written⟩ |
    ⟨a0, d, rfl, written⟩⟩ := hostAccess_effect access run
  · simp [same]
  · simp [written]
  · simp [written]
  · simp [written]
  · simp [written]

/-- Settles O12: an instruction that arms does not clear ARMED, and one that clears it does not set it. -/
theorem whatClearsAndSetsArmed : Obligations.WhatClearsAndSetsArmed := by
  unfold Obligations.WhatClearsAndSetsArmed
  intro i s t rstLow run
  obtain kept | ⟨clears, cleared⟩ | ⟨arms, stays, needs⟩ := exec_armed rstLow run
  · rw [kept]
    constructor <;> intro was isNow <;> exact absurd (was.symm.trans isNow) (by decide)
  · exact ⟨fun _ _ => clears, fun _ set => absurd (cleared.symm.trans set) (by decide)⟩
  · refine ⟨fun was lost => absurd (lost.symm.trans (stays was)) (by decide), fun was set => ?_⟩
    exact ⟨(needs set).resolve_left (by simp [was]), arms⟩

end Sys2Proof
end

section
/-! SUPPORT. The trace of a tick (30_encoding.md R89): the tick is its trace's actions in their order,
and each unit has at most one action in it, chosen by the state at the start (40_tick.md R108). -/

namespace Sys2Proof.Machine

/-! ## The tick is its trace -/

/-- A TICK is the actions of its trace, then ZC_PREV <- ZC (40_tick.md R100, R107). -/
theorem runActions_tickEvents (p : Config.Params) (pin : BitVec 3) (zc : Bool) (b : Block) :
    { runActions p (tickEvents p pin zc b) { b with tcnt := b.tcnt + 1, pins := pin } with
      zcPrev := zc } = tick p pin zc b := by
  have mode : b.dbMode ≠ .counting →
      (zcAction p zc b.dbMode (beforeZc p pin b)).dbMode = b.dbMode := fun notCounting =>
    (zcChannel_beforeZc_sameFilter p pin zc b notCounting).1
  unfold tickEvents
  rw [runActions_append, runActions_append, runActions_append, runActions_goffEvents,
    runActions_triacEvents, show triacChannel p (beforeTriac pin b) = beforeZc p pin b from rfl,
    runActions_zcEvents]
  exact runActions_tailEvents p zc mode

/-! ## Ticks without an action -/

/-- Without the edge its ARM phase waits for, and before the target of its debounce phase, the
zero-crossing channel takes no action (41_zero_crossing.md R125). -/
theorem zcEvents_of_none_due {zc : Bool} (m : DbMode) {b : Block}
    (noFall : b.zcPhase = .armFall → b.fall zc = false)
    (noRise : b.zcPhase = .armRise → b.rise zc = false)
    (unexpired : b.zcPhase = .debFall ∨ b.zcPhase = .debRise → b.zcExpired = false) :
    zcEvents zc m b = [] := by
  unfold zcEvents
  cases phase : b.zcPhase with
  | armFall => simp [noFall phase]
  | debFall => simp [unexpired (.inl phase)]
  | armRise => simp [noRise phase]
  | debRise => simp [unexpired (.inr phase)]

/-- Outside VERIFY, and in IDLE with the committed pattern sampled, the debounce tail takes no action
(43_debounce.md R181, R188). -/
theorem tailEvents_of_none_due {m : DbMode} {b : Block} (noVerify : m ≠ .verify)
    (still : m = .idle → b.masked = b.dbComm) : tailEvents m b = [] := by
  cases m with
  | idle => simp [tailEvents, still rfl]
  | counting => rfl
  | verify => exact absurd rfl noVerify

/-! ## The bounds -/

/-- An action of the zero-crossing channel (40_tick.md R108). -/
def isZcAction (i : Instr) : Bool := i == .evFall || i == .evFdeb || i == .evRise || i == .evPtick

/-- An action of the debounce filter (40_tick.md R108). -/
def isFilterAction (i : Instr) : Bool :=
  i == .evDbstep || i == .evCommit || i == .evAbort || i == .evDetect

/-- One of the two actions of a fire (40_tick.md R108). -/
def isTriacAction (i : Instr) : Bool := i == .evNormal || i == .evRetry

/-- A trace with at most so many actions of each unit. -/
abbrev ActionBounds (zc filter triac : Nat) (is : List Instr) : Prop :=
  is.countP isZcAction ≤ zc ∧ is.countP isFilterAction ≤ filter ∧ is.countP isTriacAction ≤ triac

theorem ActionBounds.append {a b c a' b' c' : Nat} {is js : List Instr}
    (hi : ActionBounds a b c is) (hj : ActionBounds a' b' c' js) :
    ActionBounds (a + a') (b + b') (c + c') (is ++ js) := by
  obtain ⟨zc, filter, triac⟩ := hi
  obtain ⟨zc', filter', triac'⟩ := hj
  simp only [ActionBounds, List.countP_append]
  exact ⟨Nat.add_le_add zc zc', Nat.add_le_add filter filter', Nat.add_le_add triac triac'⟩

/-- A trace without an action of the filter is within any bound on them. -/
theorem ActionBounds.of_noFilter {a c : Nat} {is : List Instr} (h : ActionBounds a 0 c is) (b : Nat) :
    ActionBounds a b c is :=
  have ⟨zc, filter, triac⟩ := h
  ⟨zc, filter.trans (Nat.zero_le b), triac⟩

/-- How many steps of the filter a periodic tick takes (41_zero_crossing.md R127). -/
def DbMode.steps (mode0 : DbMode) : Nat := if mode0 = .counting then 1 else 0

theorem goffEvents_bounds (b : Block) : ActionBounds 0 0 0 (goffEvents b) := by
  unfold goffEvents
  split <;> decide

theorem triacEvents_bounds (p : Config.Params) (b : Block) :
    ActionBounds 0 0 1 (triacEvents p b) := by
  unfold triacEvents
  split
  · split <;> decide
  · decide

theorem computeEvents_bounds (b : Block) : ActionBounds 0 0 0 (computeEvents b) := by
  unfold computeEvents
  split
  · split
    · split <;> decide
    · decide
  · decide

theorem zcEvents_bounds (zc : Bool) (m : DbMode) (b : Block) :
    ActionBounds 1 m.steps 0 (zcEvents zc m b) := by
  have none : ActionBounds 1 m.steps 0 [] := .of_noFilter (by decide) _
  unfold zcEvents
  cases b.zcPhase with
  | armFall | debFall | armRise =>
    dsimp only
    split
    · exact .of_noFilter (by decide) _
    · exact none
  | debRise =>
    dsimp only
    split
    · have phase : ActionBounds 1 0 0 [.evPtick] := by decide
      have step : ActionBounds 0 m.steps 0 (if m = .counting then [.evDbstep] else []) := by
        cases m <;> decide
      simpa using phase.append ((computeEvents_bounds b).append step)
    · exact none

theorem tailEvents_bounds (m : DbMode) (b : Block) :
    ActionBounds 0 (1 - m.steps) 0 (tailEvents m b) := by
  unfold tailEvents
  cases m with
  | counting => dsimp only; decide
  | idle | verify => dsimp only; split <;> decide

/-- At most one action of each unit in a tick: a tick that starts in COUNTING steps the filter but takes
no action of the tail, and any other tick the other way round (40_tick.md R108). -/
theorem tickEvents_bounds (p : Config.Params) (pin : BitVec 3) (zc : Bool) (b : Block) :
    ActionBounds 1 1 1 (tickEvents p pin zc b) := by
  have bounds := (((goffEvents_bounds b).append (triacEvents_bounds p (beforeTriac pin b))).append
    (zcEvents_bounds zc b.dbMode (beforeZc p pin b))).append
    (tailEvents_bounds b.dbMode (zcChannel p zc b.dbMode (beforeZc p pin b)))
  have one : 0 + 0 + b.dbMode.steps + (1 - b.dbMode.steps) = 1 := by cases b.dbMode <;> rfl
  rw [one] at bounds
  exact bounds

/-! ## The choice -/

/-- What ZC_PHASE and DB_MODE must be for an action (40_tick.md R108). -/
def ChosenBy (phase : ZcPhase) (mode : DbMode) : Instr → Prop
  | .evFall => phase = .armFall
  | .evFdeb => phase = .debFall
  | .evRise => phase = .armRise
  | .evPtick => phase = .debRise
  | .evDbstep => mode = .counting
  | .evCommit => mode = .verify
  | .evAbort => mode = .verify
  | .evDetect => mode = .idle
  | _ => True

theorem goffEvents_chosen (phase : ZcPhase) (mode : DbMode) (b : Block) :
    ∀ i ∈ goffEvents b, ChosenBy phase mode i := by
  unfold goffEvents
  split <;> simp [ChosenBy]

theorem triacEvents_chosen (phase : ZcPhase) (mode : DbMode) (p : Config.Params) (b : Block) :
    ∀ i ∈ triacEvents p b, ChosenBy phase mode i := by
  unfold triacEvents
  split
  · split <;> simp [ChosenBy]
  · simp

theorem computeEvents_chosen (phase : ZcPhase) (mode : DbMode) (b : Block) :
    ∀ i ∈ computeEvents b, ChosenBy phase mode i := by
  unfold computeEvents
  split
  · split
    · split <;> simp [ChosenBy]
    · simp [ChosenBy]
  · simp [ChosenBy]

theorem zcEvents_chosen (zc : Bool) (m : DbMode) (b : Block) :
    ∀ i ∈ zcEvents zc m b, ChosenBy b.zcPhase m i := by
  unfold zcEvents
  cases phase : b.zcPhase with
  | armFall | debFall | armRise => dsimp only; split <;> simp [ChosenBy]
  | debRise =>
    dsimp only
    split
    · refine List.forall_mem_cons.mpr ⟨rfl, List.forall_mem_append.mpr
        ⟨computeEvents_chosen _ m b, ?_⟩⟩
      split <;> simp_all [ChosenBy]
    · simp

theorem tailEvents_chosen (phase : ZcPhase) (m : DbMode) (b : Block) :
    ∀ i ∈ tailEvents m b, ChosenBy phase m i := by
  unfold tailEvents
  cases m with
  | counting => simp
  | idle | verify => dsimp only; split <;> simp [ChosenBy]

/-- Every action of a tick is one that the phase and the mode at its start choose (40_tick.md R108). -/
theorem tickEvents_chosen (p : Config.Params) (pin : BitVec 3) (zc : Bool) (b : Block) :
    ∀ i ∈ tickEvents p pin zc b, ChosenBy b.zcPhase b.dbMode i := by
  have zcChosen := zcEvents_chosen zc b.dbMode (beforeZc p pin b)
  have phase : (beforeZc p pin b).zcPhase = b.zcPhase := by simp
  rw [phase] at zcChosen
  simp only [tickEvents, List.forall_mem_append]
  exact ⟨⟨⟨goffEvents_chosen _ _ b, triacEvents_chosen _ _ p _⟩, zcChosen⟩,
    tailEvents_chosen _ b.dbMode _⟩

end Sys2Proof.Machine

namespace Sys2Proof

open Machine

/-- Settles O15: sub-step by sub-step, the trace's actions are the tick. -/
theorem emptyTraceMeansQuietTick : Obligations.EmptyTraceMeansQuietTick := by
  unfold Obligations.EmptyTraceMeansQuietTick
  intro s pin zc rstLow start
  have trace := runActions_tickEvents Config.params pin zc s.blk
  have run := exec_tick rstLow pin zc
  rw [← trace] at run
  refine ⟨run, fun quiet => ?_⟩
  rw [quiet] at run
  exact run

/-- Settles O14: in such a tick no unit has an action, so the trace is empty. -/
theorem quietTickChangesNothingElse : Obligations.QuietTickChangesNothingElse := by
  unfold Obligations.QuietTickChangesNothingElse
  intro s pin zc rstLow noEnd noMatch noFall noRise early noVerify still
  refine (emptyTraceMeansQuietTick s pin zc rstLow).2 ?_
  have noFire : (beforeTriac pin s.blk).fires = false := by simpa using noMatch
  have noZc : zcEvents zc s.blk.dbMode (beforeZc Config.params pin s.blk) = [] :=
    zcEvents_of_none_due s.blk.dbMode (by simpa using noFall) (by simpa using noRise)
      (by simpa using early)
  have noTail := tailEvents_of_none_due
    (b := zcChannel Config.params zc s.blk.dbMode (beforeZc Config.params pin s.blk)) noVerify
    (by simpa [zcChannel_masked] using still)
  simp [tickEvents, goffEvents, triacEvents, noEnd, noFire, noZc, noTail]

/-- Settles O16: the trace is four lists, one a unit, and each unit's list has at most one action of that
unit. -/
theorem atMostOneActionOfEachUnit : Obligations.AtMostOneActionOfEachUnit := by
  unfold Obligations.AtMostOneActionOfEachUnit
  intro s pin zc rstLow acts
  obtain ⟨zcBound, filterBound, triacBound⟩ := tickEvents_bounds Config.params pin zc s.blk
  have chosen := tickEvents_chosen Config.params pin zc s.blk
  exact ⟨(emptyTraceMeansQuietTick s pin zc rstLow).1, zcBound, filterBound, triacBound,
    chosen .evFall, chosen .evFdeb, chosen .evRise, chosen .evPtick, chosen .evDbstep,
    Or.rec (chosen .evCommit) (chosen .evAbort), chosen .evDetect⟩

end Sys2Proof
end

section
/-! SUPPORT. The TRIAC channel through a tick (42_triac.md R151 to R156), and the resynchronisation policy
of a periodic tick (41_zero_crossing.md R130 to R135). -/

namespace Sys2Proof.Machine

/-! ## Ticks without a periodic tick -/

/-- A match that takes the normal action (42_triac.md R153, R155). -/
theorem tick_of_normal (p : Config.Params) (pin : BitVec 3) (zc : Bool) {b : Block}
    (armed : b.armed = true) (due : b.tcnt + 1 = b.tcmp) (normal : b.takesNormal p = true)
    (notPeriodic : ¬ (b.zcPhase = .debRise ∧ b.tcnt + 1 = b.zcCcr)) :
    let t := tick p pin zc b
    t.gate = true ∧ t.goff = true ∧ t.delayOff = false ∧ t.zct = b.zct + b.halfper ∧
      t.tcmp = b.zct + b.halfper + b.tdelay ∧ t.armed = true ∧ t.SameMeasurement b := by
  obtain ⟨measured, ⟨zct, tcmp, armed', delayOff⟩, gate, goff⟩ :=
    tick_of_not_periodic p pin zc b notPeriodic
  have schedule := beforeZc_schedule p pin b
  simp only [armed, due, normal, beq_self_eq_true, Bool.and_self, Bool.true_or, Bool.not_true,
    if_true] at schedule
  obtain ⟨zct', tcmp', delayOff', gate', goff'⟩ := schedule
  exact ⟨gate.trans gate', goff.trans goff', delayOff.trans delayOff', zct.trans zct',
    tcmp.trans tcmp', by simpa [armed] using armed', measured⟩

/-- A match that takes the retry action (42_triac.md R153, R156). -/
theorem tick_of_retry (p : Config.Params) (pin : BitVec 3) (zc : Bool) {b : Block}
    (armed : b.armed = true) (due : b.tcnt + 1 = b.tcmp) (retry : b.takesNormal p = false)
    (notPeriodic : ¬ (b.zcPhase = .debRise ∧ b.tcnt + 1 = b.zcCcr)) :
    let t := tick p pin zc b
    t.gate = true ∧ t.goff = false ∧ t.delayOff = true ∧ t.zct = b.zct ∧
      t.tcmp = b.tcmp + p.triacExtend ∧ t.armed = true ∧ t.SameMeasurement b := by
  obtain ⟨measured, ⟨zct, tcmp, armed', delayOff⟩, gate, goff⟩ :=
    tick_of_not_periodic p pin zc b notPeriodic
  have schedule := beforeZc_schedule p pin b
  simp only [armed, due, retry, beq_self_eq_true, Bool.and_self, Bool.and_false, Bool.true_or,
    Bool.not_false, Bool.false_eq_true, if_true, if_false] at schedule
  obtain ⟨zct', tcmp', delayOff', gate', goff'⟩ := schedule
  exact ⟨gate.trans gate', goff.trans goff', delayOff.trans delayOff', zct.trans zct',
    tcmp.trans tcmp', by simpa [armed] using armed', measured⟩

/-- Without a match the TRIAC channel does nothing, so a running pulse at most ends (42_triac.md R151,
R152; 40_tick.md R102). -/
theorem tick_of_no_match (p : Config.Params) (pin : BitVec 3) (zc : Bool) {b : Block}
    (noMatch : ¬ (b.armed = true ∧ b.tcnt + 1 = b.tcmp))
    (notPeriodic : ¬ (b.zcPhase = .debRise ∧ b.tcnt + 1 = b.zcCcr)) :
    let t := tick p pin zc b
    t.SameSchedule b ∧ t.gate = (b.gate && !b.goff) ∧ t.goff = false ∧ t.SameMeasurement b := by
  obtain ⟨measured, ⟨zct, tcmp, armed, delayOff⟩, gate, goff⟩ :=
    tick_of_not_periodic p pin zc b notPeriodic
  obtain ⟨zct', tcmp', armed', delayOff'⟩ := beforeZc_sameSchedule_of_no_match p pin noMatch
  have unfired : (b.armed && (b.tcnt + 1 == b.tcmp)) = false := by simpa using noMatch
  obtain ⟨-, -, -, gate', goff'⟩ := beforeZc_schedule p pin b
  rw [unfired] at gate' goff'
  exact ⟨⟨zct.trans zct', tcmp.trans tcmp', armed.trans armed', delayOff.trans delayOff'⟩,
    gate.trans gate', goff.trans goff', measured⟩

/-! ## The resynchronisation policy -/

/-- The discrepancy test, written out (41_zero_crossing.md R130 to R132). -/
theorem small_iff_natAbs_le (b : Block) :
    b.small = true ↔
      (b.peak + b.halfper >>> 1 + b.halfper - b.zct).toInt.natAbs ≤ (b.halfper >>> 1).toNat ∨
        ((b.peak + b.halfper >>> 1 + b.halfper - b.zct).toInt - (b.halfper.toNat : Int)).natAbs ≤
          (b.halfper >>> 1).toNat := by
  simp only [Block.small, Bool.or_eq_true, decide_eq_true_eq]
  rfl

/-- A computation resynchronises while disabled or on a large discrepancy (41_zero_crossing.md R133). -/
theorem resyncs_iff (b : Block) : b.resyncs = true ↔ b.armed = false ∨ ¬ b.small = true := by
  simp [Block.resyncs]

/-- The measurement on the block that the TRIAC channel left reads the tick's start only
(41_zero_crossing.md R129). -/
theorem measurePeriod_beforeZc (p : Config.Params) (pin : BitVec 3) (b : Block) :
    measurePeriod (beforeZc p pin b) =
      { beforeZc p pin b with
        halfper := half (b.newPeak - b.peak), peak := b.newPeak, lock := true } := by
  simp [measurePeriod]

/-- A computation that resynchronises replaces ZCT and sets STATUS.ZUPD, and with a TDELAY arms
(41_zero_crossing.md R133, R134). -/
theorem periodicCompute_resyncs {b : Block} (pkv : b.pkv = true)
    (resyncs : (measurePeriod b).resyncs = true) :
    let c := periodicCompute b
    let candidate := (measurePeriod b).candidate
    c.zct = candidate ∧ c.stZupd = true ∧
      (b.tdelay ≠ 0 →
        c.tcmp = candidate + b.tdelay ∧ c.armed = true ∧ c.delayOff = false ∧
          c.goff = (b.gate || b.goff)) ∧
      (b.tdelay = 0 →
        c.tcmp = b.tcmp ∧ c.armed = b.armed ∧ c.delayOff = b.delayOff ∧ c.goff = b.goff) := by
  by_cases zero : b.tdelay = 0
  · simp [periodicCompute_of_resync pkv resyncs zero, show b.tdelay = 0#16 from zero]
  · simp [periodicCompute_of_arm pkv resyncs zero, show ¬ b.tdelay = 0#16 from zero]

/-- GOFF after a periodic tick is that of its computation (41_zero_crossing.md R127, R134). -/
theorem tick_goff_of_periodic (p : Config.Params) (pin : BitVec 3) (zc : Bool) {b : Block}
    (phase : b.zcPhase = .debRise) (due : b.tcnt + 1 = b.zcCcr) :
    (tick p pin zc b).goff = (periodicCompute (beforeZc p pin b)).goff := by
  obtain ⟨-, goff, -⟩ :=
    zcChannel_of_expireRise p zc b.dbMode (b := beforeZc p pin b) (by simpa using phase)
      (by simpa using due)
  simpa [tick] using goff

/-- A periodic tick that resynchronises: the new projection, and with a TDELAY the arming, on what the
fire of the same tick left (41_zero_crossing.md R133, R134; 40_tick.md R107). -/
theorem tick_of_resync (p : Config.Params) (pin : BitVec 3) (zc : Bool) {b : Block}
    (phase : b.zcPhase = .debRise) (due : b.tcnt + 1 = b.zcCcr) (pkv : b.pkv = true)
    (resyncs : (measurePeriod (beforeZc p pin b)).resyncs = true) :
    let t := tick p pin zc b
    let z := beforeZc p pin b
    let candidate := (measurePeriod z).candidate
    t.zct = candidate ∧ t.stZupd = true ∧
      (b.tdelay ≠ 0 →
        t.tcmp = candidate + b.tdelay ∧ t.armed = true ∧ t.delayOff = false ∧
          t.goff = (z.gate || z.goff)) ∧
      (b.tdelay = 0 →
        t.tcmp = z.tcmp ∧ t.armed = b.armed ∧ t.delayOff = z.delayOff ∧ t.goff = z.goff) := by
  obtain ⟨-, ⟨-, -, -, -, -, stZupd⟩, ⟨zct, tcmp, armed, delayOff⟩⟩ :=
    tick_of_periodic p pin zc phase due
  have computed := periodicCompute_resyncs (b := beforeZc p pin b) (by simpa using pkv) resyncs
  simp only [beforeZc_frame] at computed
  simpa only [zct, tcmp, armed, delayOff, stZupd, tick_goff_of_periodic p pin zc phase due]
    using computed

/-- A periodic tick that ignores a small discrepancy: the TRIAC state is what the fire of the same tick
left (41_zero_crossing.md R135; 40_tick.md R107). -/
theorem tick_of_small (p : Config.Params) (pin : BitVec 3) (zc : Bool) {b : Block}
    (phase : b.zcPhase = .debRise) (due : b.tcnt + 1 = b.zcCcr) (pkv : b.pkv = true)
    (ignores : (measurePeriod (beforeZc p pin b)).resyncs = false) :
    let t := tick p pin zc b
    let z := beforeZc p pin b
    t.SameSchedule z ∧ t.goff = z.goff ∧ t.stZupd = b.stZupd := by
  obtain ⟨-, ⟨-, -, -, -, -, stZupd⟩, schedule⟩ := tick_of_periodic p pin zc phase due
  have goff := tick_goff_of_periodic p pin zc phase due
  rw [periodicCompute_of_small (by simpa using pkv) ignores] at stZupd schedule goff
  exact ⟨by simpa [Block.SameSchedule] using schedule, by simpa using goff, by simpa using stZupd⟩

/-- The choice of action by the parameters of this block (42_triac.md R153, R154). -/
theorem takesNormal_iff (b : Block) :
    b.takesNormal Config.params = true ↔
      Config.triacMinDelay < b.tdelay ∨ b.delayOff = true := by
  simp [Block.takesNormal, or_comm]

end Sys2Proof.Machine

namespace Sys2Proof

open Machine

/-- Settles O23: such a match chooses the normal action, and no computation follows it in the tick. -/
theorem matchTakesTheNormalAction : Obligations.MatchTakesTheNormalAction := by
  unfold Obligations.MatchTakesTheNormalAction
  intro s pin zc rstLow armed due normal notPeriodic
  exact ⟨_, exec_tick rstLow pin zc,
    tick_of_normal Config.params pin zc armed due ((takesNormal_iff _).mpr normal) notPeriodic⟩

/-- Settles O24: such a match chooses the retry action, and no computation follows it in the tick. -/
theorem matchTakesTheRetryAction : Obligations.MatchTakesTheRetryAction := by
  unfold Obligations.MatchTakesTheRetryAction
  intro s pin zc rstLow armed due short first notPeriodic
  have retry : s.blk.takesNormal Config.params = false := by
    rw [← Bool.not_eq_true, takesNormal_iff]
    simp [short, first]
  exact ⟨_, exec_tick rstLow pin zc,
    tick_of_retry Config.params pin zc armed due retry notPeriodic⟩

/-- Settles O25: the TRIAC channel then leaves the block as sub-steps 1 to 3 do. -/
theorem noMatchKeepsTheSchedule : Obligations.NoMatchKeepsTheSchedule := by
  unfold Obligations.NoMatchKeepsTheSchedule
  intro s pin zc rstLow noMatch notPeriodic
  obtain ⟨schedule, gate, goff, -⟩ := tick_of_no_match Config.params pin zc noMatch notPeriodic
  exact ⟨_, exec_tick rstLow pin zc, schedule, gate, goff⟩

/-- Settles O22: the computation runs on the block that sub-step 4 leaves, and its three cases are the
small discrepancy, the resynchronisation with TDELAY at 0, and the one that arms. -/
theorem periodicTickResyncPolicy : Obligations.PeriodicTickResyncPolicy := by
  unfold Obligations.PeriodicTickResyncPolicy
  intro s pin zc rstLow phase due hasPeak fire normal liveZct liveTcmp liveDelayOff liveGate peak hp c
    d0 small
  have measured := measurePeriod_beforeZc Config.params pin s.blk
  obtain ⟨zZct, zTcmp, zDelayOff, zGate, zGoff⟩ := beforeZc_schedule Config.params pin s.blk
  have armed : (beforeZc Config.params pin s.blk).armed = s.blk.armed := by simp
  have resyncs : (measurePeriod (beforeZc Config.params pin s.blk)).resyncs = true ↔
      s.blk.armed = false ∨ ¬ small := by
    rw [resyncs_iff, small_iff_natAbs_le, measured]
    dsimp only
    rw [zZct, armed]
    rfl
  refine ⟨_, exec_tick rstLow pin zc, tick_gate Config.params pin zc s.blk, fun large => ?_,
    fun wasArmed isSmall => ?_⟩
  · obtain ⟨zct, stZupd, arms, keeps⟩ :=
      tick_of_resync Config.params pin zc phase due hasPeak (resyncs.mpr large)
    have candidate : (measurePeriod (beforeZc Config.params pin s.blk)).candidate = c := by
      rw [measured]
      rfl
    rw [candidate] at zct arms
    refine ⟨zct, stZupd, fun nonzero => ?_, fun zero => ?_⟩
    · obtain ⟨tcmp, armed, delayOff, goff⟩ := arms nonzero
      have pulse : (liveGate || normal) = liveGate := by
        simp only [liveGate, normal]
        cases fire <;> simp
      exact ⟨tcmp, armed, delayOff, goff.trans ((congrArg₂ or zGate zGoff).trans pulse)⟩
    · obtain ⟨tcmp, armed, delayOff, goff⟩ := keeps zero
      exact ⟨tcmp.trans zTcmp, armed, delayOff.trans zDelayOff, goff.trans zGoff⟩
  · have ignores : (measurePeriod (beforeZc Config.params pin s.blk)).resyncs = false := by
      rw [← Bool.not_eq_true, resyncs]
      simp [wasArmed, isSmall]
    obtain ⟨⟨zct, tcmp, armed', delayOff⟩, goff, stZupd⟩ :=
      tick_of_small Config.params pin zc phase due hasPeak ignores
    exact ⟨zct.trans zZct, tcmp.trans zTcmp, (armed'.trans armed).trans wasArmed,
      delayOff.trans zDelayOff, goff.trans zGoff, stZupd⟩

end Sys2Proof
end

section
/-! SUPPORT. The debounce filter in COUNTING (43_debounce.md R181, R183): it steps at periodic ticks only,
and a stable input takes it from the top of the count to a commit (R191, R193). -/

namespace Sys2Proof.Machine

/-! ## The step -/

/-- A changed sample starts the count again (43_debounce.md R183). -/
theorem debounceStep_of_moved (p : Config.Params) {b : Block} (moved : b.masked ≠ b.dbLast) :
    debounceStep p b = { b with dbLast := b.masked, dbCnt := p.debounceLen } :=
  if_pos moved

/-- A repeated sample counts down, and at 0 enters VERIFY (43_debounce.md R183). -/
theorem debounceStep_of_still (p : Config.Params) {b : Block} (still : b.masked = b.dbLast) :
    debounceStep p b =
      { b with
        dbCnt := b.dbCnt - 1
        dbMode := if b.dbCnt - 1 = 0 then .verify else b.dbMode } :=
  if_neg (not_not.mpr still)

/-! ## Ticks that start in COUNTING -/

/-- The debounce tail takes no part in a tick that starts in COUNTING (40_tick.md R106). -/
theorem tick_of_counting (p : Config.Params) (pin : BitVec 3) (zc : Bool) {b : Block}
    (mode : b.dbMode = .counting) :
    tick p pin zc b = zcChannel p zc .counting (beforeZc p pin b) := by
  rw [tick, mode]
  rfl

/-- A tick that is no periodic tick leaves the filter alone (43_debounce.md R181). -/
theorem tick_sameFilter_of_waiting (p : Config.Params) (pin : BitVec 3) (zc : Bool) {b : Block}
    (mode : b.dbMode = .counting) (notPeriodic : ¬ (b.zcPhase = .debRise ∧ b.tcnt + 1 = b.zcCcr)) :
    (tick p pin zc b).SameFilter b := by
  obtain ⟨-, -, -, kept⟩ :=
    zcChannel_of_not_expireRise p zc .counting (beforeZc p pin b) (by simpa using notPeriodic)
  rw [tick_of_counting p pin zc mode]
  simpa [Block.SameFilter, Block.SameCommit] using kept

/-- A tick that does not start in VERIFY commits nothing, even where it enters VERIFY
(43_debounce.md R184, R186). -/
theorem tick_sameCommit_of_not_verify (p : Config.Params) (pin : BitVec 3) (zc : Bool) {b : Block}
    (mode : b.dbMode ≠ .verify) : (tick p pin zc b).SameCommit b := by
  unfold tick
  cases m : b.dbMode with
  | idle => simp [debounceTail, Block.SameCommit]
  | counting => simp [Block.SameCommit]
  | verify => exact absurd m mode

/-- The step of a periodic tick whose sample changed (43_debounce.md R183). -/
theorem tick_of_step_moved (p : Config.Params) (pin : BitVec 3) (zc : Bool) {b : Block}
    (mode : b.dbMode = .counting) (phase : b.zcPhase = .debRise) (due : b.tcnt + 1 = b.zcCcr)
    (moved : pin &&& b.dbMask ≠ b.dbLast) :
    let t := tick p pin zc b
    t.dbLast = pin &&& b.dbMask ∧ t.dbCnt = p.debounceLen ∧ t.dbMode = .counting := by
  have step := zcChannel_filter_of_expireRise p zc .counting (b := beforeZc p pin b)
    (by simpa using phase) (by simpa using due)
  have sample : (beforeZc p pin b).masked = pin &&& b.dbMask := by simp [Block.masked]
  rw [if_pos rfl, debounceStep_of_moved p (by simpa [sample] using moved), sample] at step
  rw [tick_of_counting p pin zc mode]
  obtain ⟨dbMode, dbCnt, dbLast⟩ := step
  exact ⟨dbLast, dbCnt, by simpa [mode] using dbMode⟩

/-- The step of a periodic tick whose sample is the observed value (43_debounce.md R183). -/
theorem tick_of_step_still (p : Config.Params) (pin : BitVec 3) (zc : Bool) {b : Block}
    (mode : b.dbMode = .counting) (phase : b.zcPhase = .debRise) (due : b.tcnt + 1 = b.zcCcr)
    (still : pin &&& b.dbMask = b.dbLast) :
    let t := tick p pin zc b
    t.dbLast = b.dbLast ∧ t.dbCnt = b.dbCnt - 1 ∧
      t.dbMode = if b.dbCnt - 1 = 0 then .verify else .counting := by
  have step := zcChannel_filter_of_expireRise p zc .counting (b := beforeZc p pin b)
    (by simpa using phase) (by simpa using due)
  have sample : (beforeZc p pin b).masked = pin &&& b.dbMask := by simp [Block.masked]
  rw [if_pos rfl, debounceStep_of_still p (by simpa [sample] using still)] at step
  rw [tick_of_counting p pin zc mode]
  obtain ⟨dbMode, dbCnt, dbLast⟩ := step
  exact ⟨by simpa using dbLast, by simpa using dbCnt, by simpa [mode] using dbMode⟩

/-! ## A stable input -/

/-- Whether a tick is periodic, by the elements (41_zero_crossing.md R124). -/
theorem periodicDue_iff (b : Block) :
    b.periodicDue = true ↔ b.zcPhase = .debRise ∧ b.tcnt + 1 = b.zcCcr := by
  simp [Block.periodicDue]

/-- The count that `start` stands in has `n` steps left in `b`, and nothing was committed since. -/
structure Block.CountsDown (start b : Block) (n : Nat) : Prop where
  dbMode : b.dbMode = .counting
  dbCnt : b.dbCnt = BitVec.ofNat 3 n
  dbLast : b.dbLast = start.dbLast
  dbMask : b.dbMask = start.dbMask
  dbComm : b.dbComm = start.dbComm
  dbv : b.dbv = start.dbv
  dbchg : b.dbchg = start.dbchg
  stDbc : start.stDbc = false → b.stDbc = false

/-- A tick that is no periodic tick leaves the count where it is. -/
theorem Block.CountsDown.tick_waiting {start b : Block} {n : Nat} (h : start.CountsDown b n)
    (p : Config.Params) (pin : BitVec 3) (zc : Bool) (waits : b.periodicDue = false) :
    start.CountsDown (tick p pin zc b) n := by
  obtain ⟨mode, cnt, last, comm, dbv, dbchg, dbc⟩ := tick_sameFilter_of_waiting p pin zc h.dbMode
    (by rw [← periodicDue_iff, waits]; exact Bool.false_ne_true)
  exact ⟨mode.trans h.dbMode, cnt.trans h.dbCnt, last.trans h.dbLast, by simpa using h.dbMask,
    comm.trans h.dbComm, dbv.trans h.dbv, dbchg.trans h.dbchg, fun off => dbc.trans (h.stDbc off)⟩

/-- A periodic tick with the stable sample takes one step, and not the last of several. -/
theorem Block.CountsDown.tick_step {start b : Block} {n : Nat} (h : start.CountsDown b (n + 1))
    (more : 0 < n) (few : n < 8) (p : Config.Params) {pin : BitVec 3} (zc : Bool)
    (due : b.periodicDue = true) (still : pin &&& start.dbMask = start.dbLast) :
    start.CountsDown (tick p pin zc b) n := by
  obtain ⟨phase, target⟩ := (periodicDue_iff b).mp due
  obtain ⟨last, cnt, mode⟩ := tick_of_step_still p pin zc h.dbMode phase target
    (by rw [h.dbMask, h.dbLast]; exact still)
  obtain ⟨comm, dbv, dbchg, dbc⟩ :=
    tick_sameCommit_of_not_verify p pin zc (b := b) (by simp [h.dbMode])
  have left : b.dbCnt - 1 = BitVec.ofNat 3 n := by rw [h.dbCnt]; bv_omega
  have unfinished : BitVec.ofNat 3 n ≠ 0 := by bv_omega
  rw [left] at cnt mode
  rw [if_neg unfinished] at mode
  exact ⟨mode, cnt, last.trans h.dbLast, by simpa using h.dbMask, comm.trans h.dbComm,
    dbv.trans h.dbv, dbchg.trans h.dbchg, fun off => dbc.trans (h.stDbc off)⟩

/-- A RD or WR, but for a WR to DB_MASK, leaves the count where it is (43_debounce.md R189). -/
theorem Block.CountsDown.hostAccess {start : Block} {s t : State} {n : Nat} {i : Instr}
    (h : start.CountsDown s.blk n) (rstLow : s.rst = false) (access : isHostAccess i = true)
    (noMask : ∀ a0 d, i ≠ .wrDbmask a0 d) (run : exec i s = .next t) : start.CountsDown t.blk n := by
  obtain ⟨mode, cnt, last, comm, dbv, dbchg, mask, -, dbc⟩ :=
    hostAccess_filter rstLow access noMask run
  exact ⟨mode.trans h.dbMode, cnt.trans h.dbCnt, last.trans h.dbLast, mask.trans h.dbMask,
    comm.trans h.dbComm, dbv.trans h.dbv, dbchg.trans h.dbchg, fun off => dbc (h.stDbc off)⟩

/-- The operations of a list are TICKs, RDs and WRs, and none is a WR to DB_MASK. -/
def KeepsMask (is : List Instr) : Prop := NoReset is ∧ ∀ a0 d, .wrDbmask a0 d ∉ is

theorem KeepsMask.tail {i : Instr} {is : List Instr} (h : KeepsMask (i :: is)) : KeepsMask is :=
  have ⟨noReset, noMask⟩ := h
  ⟨fun j mem => noReset j (List.mem_cons_of_mem i mem),
    fun a0 d mem => noMask a0 d (List.mem_cons_of_mem i mem)⟩

/-- The first operation of such a list is a TICK, or a RD or WR that does not write DB_MASK. -/
theorem KeepsMask.head {i : Instr} {is : List Instr} (h : KeepsMask (i :: is)) :
    (∃ pin zc, i = .tick pin zc) ∨
      isHostAccess i = true ∧ isTick i = false ∧ ∀ a0 d, i ≠ .wrDbmask a0 d := by
  obtain ⟨noReset, noMask⟩ := h
  refine (tick_or_hostAccess (noReset i List.mem_cons_self)).imp_right fun ⟨access, notTick⟩ =>
    ⟨access, notTick, ?_⟩
  rintro a0 d rfl
  exact noMask a0 d List.mem_cons_self

/-- A run with fewer periodic ticks than steps left counts them down (43_debounce.md R191, R193). -/
theorem Block.CountsDown.execAll {start : Block} {is : List Instr} (keeps : KeepsMask is) {n : Nat}
    {s : State} (h : start.CountsDown s.blk n) (few : n < 8) (rstLow : s.rst = false)
    (fewer : (periodicSamples is s).length < n)
    (stable : ∀ x ∈ periodicSamples is s, x &&& start.dbMask = start.dbLast) :
    ∃ t, execAll is s = .next t ∧ t.rst = false ∧
      start.CountsDown t.blk (n - (periodicSamples is s).length) := by
  induction is generalizing n s with
  | nil => exact ⟨s, rfl, rstLow, h⟩
  | cons i is ih =>
    obtain ⟨pin, zc, rfl⟩ | ⟨access, notTick, noMask⟩ := keeps.head
    · have run := exec_tick rstLow pin zc
      simp only [Machine.execAll, periodicSamples, run] at fewer stable ⊢
      cases due : s.blk.periodicDue with
      | false =>
        simp only [due, Bool.false_eq_true, if_false, List.nil_append] at fewer stable ⊢
        exact ih keeps.tail (h.tick_waiting _ pin zc due) few rstLow fewer stable
      | true =>
        simp only [due, if_true, List.singleton_append, List.length_cons] at fewer stable ⊢
        obtain ⟨still, stable⟩ := List.forall_mem_cons.mp stable
        obtain ⟨n, rfl⟩ : ∃ m, n = m + 1 := ⟨n - 1, by omega⟩
        rw [Nat.add_sub_add_right]
        exact ih keeps.tail (h.tick_step (by omega) (by omega) _ zc due still) (by omega) rstLow
          (by omega) stable
    · obtain ⟨t, run, rst, -⟩ := exec_next i s
      rw [periodicSamples_cons_host notTick run] at fewer stable ⊢
      simp only [Machine.execAll, run]
      exact ih keeps.tail (h.hostAccess rstLow access noMask run) few (rst.trans rstLow) fewer stable

/-- The filter is IDLE, with the commit of `v` as it was made (43_debounce.md R186, R193). -/
structure Block.Committed (mask v : BitVec 3) (chg : Bool) (b : Block) : Prop where
  dbMode : b.dbMode = .idle
  dbComm : b.dbComm = v
  dbv : b.dbv = true
  dbchg : b.dbchg = chg
  dbMask : b.dbMask = mask

/-- The commit stands while every sample is the committed pattern (43_debounce.md R188). -/
theorem Block.Committed.execAll {mask v : BitVec 3} {chg : Bool} {is : List Instr}
    (keeps : KeepsMask is) {s : State} (h : s.blk.Committed mask v chg) (rstLow : s.rst = false)
    (stable : ∀ x z, .tick x z ∈ is → x &&& mask = v) :
    ∃ t, execAll is s = .next t ∧ t.blk.Committed mask v chg := by
  induction is generalizing s with
  | nil => exact ⟨s, rfl, h⟩
  | cons i is ih =>
    have stableTail : ∀ x z, .tick x z ∈ is → x &&& mask = v := fun x z mem =>
      stable x z (List.mem_cons_of_mem i mem)
    obtain ⟨pin, zc, rfl⟩ | ⟨access, -, noMask⟩ := keeps.head
    · have still : pin &&& s.blk.dbMask = s.blk.dbComm := by
        rw [h.dbMask, h.dbComm]
        exact stable pin zc List.mem_cons_self
      obtain ⟨mode, -, -, comm, dbv, dbchg, -⟩ := tick_of_still Config.params pin zc h.dbMode still
      simp only [Machine.execAll, exec_tick rstLow pin zc]
      exact ih keeps.tail ⟨mode.trans h.dbMode, comm.trans h.dbComm, dbv.trans h.dbv,
        dbchg.trans h.dbchg, by simpa using h.dbMask⟩ rstLow stableTail
    · obtain ⟨t, run, rst, -⟩ := exec_next i s
      obtain ⟨mode, -, -, comm, dbv, dbchg, mask', -⟩ :=
        hostAccess_filter rstLow access noMask run
      simp only [Machine.execAll, run]
      exact ih keeps.tail ⟨mode.trans h.dbMode, comm.trans h.dbComm, dbv.trans h.dbv,
        dbchg.trans h.dbchg, mask'.trans h.dbMask⟩ (rst.trans rstLow) stableTail

/-- The last periodic tick of a count enters VERIFY with nothing committed, and the next tick commits
(43_debounce.md R183, R186). -/
theorem Block.CountsDown.commits {start b : Block} (h : start.CountsDown b 1) (p : Config.Params)
    {pin pin' : BitVec 3} (zc zc' : Bool) (due : b.periodicDue = true)
    (still : pin &&& start.dbMask = start.dbLast) (still' : pin' &&& start.dbMask = start.dbLast) :
    let u := tick p pin zc b
    let w := tick p pin' zc' u
    u.dbMode = .verify ∧ u.SameCommit b ∧ w.stDbc = true ∧
      w.Committed start.dbMask start.dbLast (decide (start.dbComm ≠ start.dbLast)) := by
  intro u w
  obtain ⟨phase, target⟩ := (periodicDue_iff b).mp due
  obtain ⟨last, -, mode⟩ := tick_of_step_still p pin zc h.dbMode phase target
    (by rw [h.dbMask, h.dbLast]; exact still)
  have verify : u.dbMode = .verify := by
    rw [h.dbCnt] at mode
    exact mode
  have last : u.dbLast = start.dbLast := last.trans h.dbLast
  have mask : u.dbMask = start.dbMask := by simpa [u] using h.dbMask
  have shown : u.SameCommit b := tick_sameCommit_of_not_verify p pin zc (by simp [h.dbMode])
  obtain ⟨dbchg, dbComm, dbv, idle, stDbc, -⟩ :=
    tick_of_commit p pin' zc' verify (by rw [mask, last]; exact still')
  rw [shown.1, h.dbComm, last] at dbchg
  exact ⟨verify, shown, stDbc, idle, dbComm.trans last, dbv, dbchg, by simpa [w] using mask⟩

/-! ## Bare steps -/

/-- The filter after `n` bare steps on a stable sample from the top of the count. -/
def Block.stepped (b : Block) (n : Nat) : Block :=
  { b with dbCnt := BitVec.ofNat 3 (5 - n), dbMode := if n = 5 then .verify else .counting }

/-- One more step, up to five (43_debounce.md R183). -/
theorem debounceStep_stepped (p : Config.Params) {b : Block} (still : b.masked = b.dbLast) {n : Nat}
    (few : n < 5) : debounceStep p (b.stepped n) = b.stepped (n + 1) := by
  have still' : (b.stepped n).masked = (b.stepped n).dbLast := still
  have left : (b.stepped n).dbCnt - 1 = BitVec.ofNat 3 (5 - (n + 1)) := by
    simp only [Block.stepped]
    bv_omega
  have done_iff : BitVec.ofNat 3 (5 - (n + 1)) = 0 ↔ n + 1 = 5 := by bv_omega
  have mode : (b.stepped n).dbMode = .counting := if_neg (by omega)
  simp only [debounceStep_of_still p still', left, done_iff, mode]
  rfl

/-- A run of bare steps, up to five. -/
theorem execAll_replicate_evDbstep {s : State} (rstLow : s.rst = false)
    (top : s.blk.stepped 0 = s.blk) (still : s.blk.masked = s.blk.dbLast) {n : Nat} (few : n ≤ 5) :
    execAll (List.replicate n .evDbstep) { s with rdata := none } =
      .next { s with blk := s.blk.stepped n, rdata := none } := by
  induction n with
  | zero => rw [top]; rfl
  | succ n ih =>
    rw [List.replicate_succ', execAll_append (ih (by omega))]
    have run := internalAction_of_rst_low
      (s := { s with blk := s.blk.stepped n, rdata := none }) rstLow (debounceStep Config.params)
    rw [debounceStep_stepped Config.params still (by omega)] at run
    simp only [execAll, exec, execEvDbstep, run]

end Sys2Proof.Machine

namespace Sys2Proof

open Machine

/-- Settles O26: the tail takes no part, so the filter is what the step of the periodic tick leaves. -/
theorem debounceStepAtThePeriodicTick : Obligations.DebounceStepAtThePeriodicTick := by
  unfold Obligations.DebounceStepAtThePeriodicTick
  intro s pin zc rstLow mode phase due
  exact ⟨_, exec_tick rstLow pin zc,
    tick_sameCommit_of_not_verify Config.params pin zc (by simp [mode]),
    tick_of_step_moved Config.params pin zc mode phase due,
    tick_of_step_still Config.params pin zc mode phase due⟩

/-- Settles O29: in such a tick neither the step nor the tail runs. -/
theorem countingWaitsForThePeriodicTick : Obligations.CountingWaitsForThePeriodicTick := by
  unfold Obligations.CountingWaitsForThePeriodicTick
  intro s pin zc rstLow mode notPeriodic
  exact ⟨_, exec_tick rstLow pin zc, tick_sameFilter_of_waiting Config.params pin zc mode notPeriodic⟩

/-- Settles O30: only a tick that starts in VERIFY commits, and by the invariant such a tick starts in
ARM_FALL, so it is no periodic tick. -/
theorem commitNeverWithAPeriodicTick : Obligations.CommitNeverWithAPeriodicTick := by
  unfold Obligations.CommitNeverWithAPeriodicTick
  rintro s t pin zc inv run noTick noDbc ⟨tickSet, dbcSet⟩
  cases rst : s.rst with
  | true =>
    cases (exec_tick_of_rst_high rst pin zc).symm.trans run
    cases tickSet
  | false =>
    cases (exec_tick rst pin zc).symm.trans run
    by_cases mode : s.blk.dbMode = .verify
    · have notPeriodic : ¬ (s.blk.zcPhase = .debRise ∧ s.blk.tcnt + 1 = s.blk.zcCcr) := by
        simp [inv.verifyAfterPtick mode]
      obtain ⟨⟨-, -, -, -, stTick, -⟩, -⟩ :=
        tick_of_not_periodic Config.params pin zc s.blk notPeriodic
      exact absurd (tickSet.symm.trans (stTick.trans noTick)) (by decide)
    · obtain ⟨-, -, -, stDbc⟩ := tick_sameCommit_of_not_verify Config.params pin zc mode
      exact absurd (dbcSet.symm.trans (stDbc.trans noDbc)) (by decide)

/-- Settles O36, by induction on the run before the last periodic tick of the count and on the run after
the commit, with the two ticks between them taken one by one. -/
theorem fiveStableStepsReachVerify : Obligations.FiveStableStepsReachVerify := by
  unfold Obligations.FiveStableStepsReachVerify
  constructor
  · intro before after pin pin' zc zc' k s v quiet rstLow mode few cnt keeps fewer stable
    have start : s.blk.CountsDown s.blk k := ⟨mode, cnt, rfl, rfl, rfl, rfl, rfl, id⟩
    obtain ⟨t, run, rst, counts⟩ := start.execAll keeps (by omega) rstLow fewer stable
    refine ⟨t, run, counts.dbMode, counts.dbCnt, counts.dbLast, counts.dbComm, counts.dbv,
      counts.dbchg, counts.stDbc, fun last due still still' => ?_⟩
    rw [show k - (periodicSamples before s).length = 1 by omega] at counts
    obtain ⟨verify, shown, stDbc, committed⟩ :=
      counts.commits Config.params zc zc' due still still'
    have first := exec_tick rst pin zc
    generalize tick Config.params pin zc t.blk = u at *
    have second := exec_tick (s := { t with blk := u, rdata := none }) rst pin' zc'
    dsimp only at second
    generalize tick Config.params pin' zc' u = w at *
    refine ⟨_, _, first, verify, shown, second, committed.dbMode, committed.dbComm, committed.dbv,
      stDbc, committed.dbchg, fun keeps stable => ?_⟩
    obtain ⟨y, run, stands⟩ := Block.Committed.execAll keeps
      (s := { t with blk := w, rdata := none }) committed rst stable
    exact ⟨y, run, stands.dbMode, stands.dbComm, stands.dbv,
      stands.dbchg.trans committed.dbchg.symm⟩
  · intro s n rstLow mode cnt still few
    have top : s.blk.stepped 0 = s.blk := by
      unfold Block.stepped
      rw [← mode, show BitVec.ofNat 3 (5 - 0) = s.blk.dbCnt from cnt.symm]
      rfl
    exact execAll_replicate_evDbstep rstLow top still few

end Sys2Proof
end

section
/-! SUPPORT. The sixteen internal actions by themselves (30_encoding.md R89; log entry 4): what each does
where its guard holds, and that it does nothing where it does not. -/

namespace Sys2Proof.Machine

/-! ## Guards that do not hold -/

/-- An internal action whose effect leaves the block as it is changes no element. -/
theorem internalAction_of_unchanged {f : Block → Block} {s : State} (rstLow : s.rst = false)
    (same : f s.blk = s.blk) : internalAction f s = .next { s with rdata := none } := by
  rw [internalAction_of_rst_low rstLow, same]

/-- No pulse is to end (40_tick.md R102). -/
theorem endPulse_of_no_goff {b : Block} (noGoff : b.goff = false) : endPulse b = b := by
  simp [endPulse, noGoff]

/-- No falling edge, or another phase (41_zero_crossing.md R121). -/
theorem captureFall_of_not (p : Config.Params) {b : Block}
    (guard : ¬ (b.zcPhase = .armFall ∧ b.zcPrev = true)) : captureFall p false b = b :=
  if_neg (by simpa [Block.fall] using guard)

/-- The falling debounce still runs, or another phase (41_zero_crossing.md R122). -/
theorem expireFall_of_not {b : Block} (guard : ¬ (b.zcPhase = .debFall ∧ b.tcnt = b.zcCcr)) :
    expireFall b = b :=
  if_neg (by simpa [Block.zcExpired] using guard)

/-- No rising edge, or another phase (41_zero_crossing.md R123). -/
theorem captureRise_of_not (p : Config.Params) {b : Block}
    (guard : ¬ (b.zcPhase = .armRise ∧ b.zcPrev = false)) : captureRise p true b = b :=
  if_neg (by simpa [Block.rise] using guard)

/-- The rising debounce still runs, or another phase (41_zero_crossing.md R124). -/
theorem expireRise_of_not (p : Config.Params) (m : DbMode) {b : Block}
    (guard : ¬ (b.zcPhase = .debRise ∧ b.tcnt = b.zcCcr)) : expireRise p m b = b :=
  if_neg (by simpa [Block.zcExpired] using guard)

/-- A small discrepancy while armed (41_zero_crossing.md R133, R135). -/
theorem resync_of_small {b : Block} (armed : b.armed = true) (small : b.small = true) :
    resync b = b :=
  if_neg (by simp [Block.resyncs, armed, small])

/-- A verify that would not succeed, or no verify (43_debounce.md R186). -/
theorem commit_of_not {b : Block} (guard : ¬ (b.dbMode = .verify ∧ b.masked = b.dbLast)) :
    commit b.dbMode b = b :=
  if_neg guard

/-- A verify that would not fail, or no verify (43_debounce.md R187). -/
theorem abort_of_not (p : Config.Params) {b : Block}
    (guard : ¬ (b.dbMode = .verify ∧ b.masked ≠ b.dbLast)) : abort p b.dbMode b = b :=
  if_neg guard

/-- No change, or not IDLE (43_debounce.md R188). -/
theorem detect_of_not (p : Config.Params) {b : Block}
    (guard : ¬ (b.dbMode = .idle ∧ b.masked ≠ b.dbComm)) : detect p b.dbMode b = b :=
  if_neg guard

/-! ## Guards that hold -/

/-- A pulse ends (40_tick.md R102). -/
theorem endPulse_of_goff {b : Block} (goff : b.goff = true) :
    endPulse b = { b with gate := false, goff := false } :=
  if_pos goff

/-- A falling edge is captured (41_zero_crossing.md R121). -/
theorem captureFall_of_edge (p : Config.Params) {b : Block} (phase : b.zcPhase = .armFall)
    (high : b.zcPrev = true) :
    captureFall p false b =
      { b with fallT := b.tcnt, zcCcr := b.tcnt + p.debFall, zcPhase := .debFall } :=
  if_pos ⟨phase, by simp [Block.fall, high]⟩

/-- The falling debounce expires (41_zero_crossing.md R122). -/
theorem expireFall_of_due {b : Block} (phase : b.zcPhase = .debFall) (due : b.tcnt = b.zcCcr) :
    expireFall b = { b with zcPhase := .armRise } :=
  if_pos ⟨phase, by simp [Block.zcExpired, due]⟩

/-- A rising edge is captured (41_zero_crossing.md R123). -/
theorem captureRise_of_edge (p : Config.Params) {b : Block} (phase : b.zcPhase = .armRise)
    (low : b.zcPrev = false) :
    captureRise p true b =
      { b with riseT := b.tcnt, zcCcr := b.tcnt + p.debRise, zcPhase := .debRise } :=
  if_pos ⟨phase, by simp [Block.rise, low]⟩

/-- The rising debounce expires (41_zero_crossing.md R124). -/
theorem expireRise_of_due (p : Config.Params) (m : DbMode) {b : Block} (phase : b.zcPhase = .debRise)
    (due : b.tcnt = b.zcCcr) : expireRise p m b = periodicTick p m { b with zcPhase := .armFall } :=
  if_pos ⟨phase, by simp [Block.zcExpired, due]⟩

/-- The first periodic tick, outside COUNTING (41_zero_crossing.md R127, R128). -/
theorem periodicTick_of_first (p : Config.Params) {m : DbMode} {b : Block} (noPeak : b.pkv = false)
    (notCounting : m ≠ .counting) :
    periodicTick p m b = { b with peak := b.newPeak, pkv := true, stTick := true } := by
  simp [periodicTick, periodicCompute_of_no_peak noPeak, notCounting]

/-- Every computation records the new peak, the first of them as every later one
(41_zero_crossing.md R128, R129). -/
theorem periodicCompute_peak (b : Block) :
    (periodicCompute b).peak = b.newPeak ∧ (periodicCompute b).pkv = true := by
  cases pkv : b.pkv with
  | false => rw [periodicCompute_of_no_peak pkv]; exact ⟨rfl, rfl⟩
  | true =>
    obtain ⟨peak, -, -, kept⟩ := periodicCompute_measures pkv
    exact ⟨peak, kept⟩

/-- What EV_PTICK leaves, but for the schedule: the phase, the measurement and STATUS.TICK of the
periodic tick, and outside COUNTING the filter as it was (41_zero_crossing.md R124, R127). -/
theorem expireRise_measures (p : Config.Params) (m : DbMode) {b : Block}
    (phase : b.zcPhase = .debRise) (due : b.tcnt = b.zcCcr) :
    let t := expireRise p m b
    t.zcPhase = .armFall ∧ t.peak = b.newPeak ∧ t.pkv = true ∧ t.stTick = true ∧
      (b.pkv = true → t.halfper = half (b.newPeak - b.peak) ∧ t.lock = true) ∧
      (m ≠ .counting → t.SameFilter b) := by
  have expired : b.zcExpired = true := by simp [Block.zcExpired, due]
  have channel : zcChannel p b.zcPrev m b = { expireRise p m b with zcPrev := b.zcPrev } := by
    simp [zcChannel, zcAction, phase]
  obtain ⟨-, -, peak, pkv, halfper, lock, -, stTick, zcPhase, -⟩ :=
    zcChannel_of_expireRise p b.zcPrev m phase expired
  have filter : m ≠ .counting → _ := zcChannel_filter_of_not_counting p b.zcPrev b
  rw [channel] at peak pkv halfper lock stTick zcPhase filter
  obtain ⟨peak', pkv'⟩ := periodicCompute_peak b
  refine ⟨zcPhase, peak.trans peak', pkv.trans pkv', stTick, fun hasPeak => ?_, filter⟩
  obtain ⟨-, halfper', lock', -⟩ := periodicCompute_measures hasPeak
  exact ⟨halfper.trans halfper', lock.trans lock'⟩

/-- Arming with a TDELAY (41_zero_crossing.md R134). -/
theorem arm_of_delay {b : Block} (delay : b.tdelay ≠ 0) :
    arm b =
      { b with
        tcmp := b.zct + b.tdelay, armed := true, delayOff := false
        goff := if b.gate then true else b.goff } := by
  have pulse : (b.gate || b.goff) = if b.gate then true else b.goff := by cases b.gate <;> rfl
  rw [← pulse]
  exact if_pos delay

/-- Arming with TDELAY at 0 (41_zero_crossing.md R134). -/
theorem arm_of_no_delay {b : Block} (zero : b.tdelay = 0) : arm b = b :=
  if_neg (not_not.mpr zero)

/-- A resynchronisation replaces ZCT and arms (41_zero_crossing.md R133). -/
theorem resync_of_resyncs {b : Block} (resyncs : b.resyncs = true) :
    resync b = arm { b with zct := b.candidate, stZupd := true } :=
  if_pos resyncs

/-- The verify succeeds (43_debounce.md R186). -/
theorem commit_of_still {b : Block} (mode : b.dbMode = .verify) (still : b.masked = b.dbLast) :
    commit b.dbMode b =
      { b with
        dbchg := decide (b.dbComm ≠ b.dbLast), dbComm := b.dbLast, dbv := true, dbMode := .idle
        stDbc := true } := by
  rw [decide_not]
  exact if_pos ⟨mode, still⟩

/-- The verify fails (43_debounce.md R187). -/
theorem abort_of_moved (p : Config.Params) {b : Block} (mode : b.dbMode = .verify)
    (moved : b.masked ≠ b.dbLast) : abort p b.dbMode b = restartCount p b.masked b :=
  if_pos ⟨mode, moved⟩

/-- A change is detected (43_debounce.md R188). -/
theorem detect_of_changed (p : Config.Params) {b : Block} (mode : b.dbMode = .idle)
    (changed : b.masked ≠ b.dbComm) : detect p b.dbMode b = restartCount p b.masked b :=
  if_pos ⟨mode, changed⟩

/-- A match, by the elements (42_triac.md R152). -/
theorem fires_iff (b : Block) : b.fires = true ↔ b.armed = true ∧ b.tcnt = b.tcmp := by
  simp [Block.fires]

/-- An internal action with RST low, by an equation for its effect. -/
theorem internalAction_of_effect {f : Block → Block} {s : State} {b : Block} (rstLow : s.rst = false)
    (effect : f s.blk = b) : internalAction f s = .next { s with blk := b, rdata := none } := by
  rw [internalAction_of_rst_low rstLow, effect]

end Sys2Proof.Machine

namespace Sys2Proof

open Machine

/-- Settles O31: the effect of each action where its guard holds. -/
theorem channelActions : Obligations.ChannelActions := by
  unfold Obligations.ChannelActions
  intro s rstLow
  refine ⟨fun goff => internalAction_of_effect rstLow (endPulse_of_goff goff),
    fun phase high => internalAction_of_effect rstLow (captureFall_of_edge _ phase high),
    fun phase due => internalAction_of_effect rstLow (expireFall_of_due phase due),
    fun phase low => internalAction_of_effect rstLow (captureRise_of_edge _ phase low),
    fun phase due noPeak mode => ?_, fun phase due => ?_⟩
  · exact internalAction_of_effect rstLow
      ((expireRise_of_due _ _ phase due).trans (periodicTick_of_first _ noPeak mode))
  · obtain ⟨zcPhase, peak, pkv, stTick, measures, filter⟩ :=
      expireRise_measures Config.params s.blk.dbMode phase due
    exact ⟨_, internalAction_of_rst_low rstLow _, zcPhase, peak, pkv, stTick, by simp,
      by simp [Block.SameCommit], by simp [Block.SameHost], measures, filter⟩

/-- Settles O32: the effect of each action is nothing where its guard does not hold. -/
theorem actionsAwaitTheirGuards : Obligations.ActionsAwaitTheirGuards := by
  unfold Obligations.ActionsAwaitTheirGuards
  intro s rstLow same v
  have idle {f : Block → Block} : f s.blk = s.blk → internalAction f s = same :=
    internalAction_of_unchanged rstLow
  exact ⟨fun guard => idle (endPulse_of_no_goff guard),
    fun guard => idle (captureFall_of_not _ guard), fun guard => idle (expireFall_of_not guard),
    fun guard => idle (captureRise_of_not _ guard), fun guard => idle (expireRise_of_not _ _ guard),
    fun armed small => idle (resync_of_small armed small),
    fun guard => idle (triacChannel_of_no_match _ (by rwa [← Bool.not_eq_true, fires_iff])),
    fun guard => idle (commit_of_not guard), fun guard => idle (abort_of_not _ guard),
    fun guard => idle (detect_of_not _ guard)⟩

/-- Settles O33: the resynchronisation is the replacement of ZCT followed by the arming, and it is due by
the discrepancy test written out. -/
theorem measurementActions : Obligations.MeasurementActions := by
  unfold Obligations.MeasurementActions
  intro s rstLow peak q c d0 small
  have replaces (due : s.blk.armed = false ∨ ¬ small) :
      resync s.blk = arm { s.blk with zct := c, stZupd := true } := by
    refine resync_of_resyncs ((resyncs_iff s.blk).mpr ?_)
    rwa [small_iff_natAbs_le]
  exact ⟨internalAction_of_rst_low rstLow firstPeak, internalAction_of_rst_low rstLow measurePeriod,
    fun due zero => internalAction_of_effect rstLow ((replaces due).trans (arm_of_no_delay zero)),
    fun due delay => internalAction_of_effect rstLow ((replaces due).trans (arm_of_delay delay)),
    fun delay => internalAction_of_effect rstLow (arm_of_delay delay),
    fun zero => internalAction_of_unchanged rstLow (arm_of_no_delay zero)⟩

/-- Settles O34: a fire is GATE and then the one action that TDELAY and DELAYOFF choose. -/
theorem triacActions : Obligations.TriacActions := by
  unfold Obligations.TriacActions
  intro s rstLow normal retry
  refine ⟨internalAction_of_rst_low rstLow normalAction,
    internalAction_of_rst_low rstLow (retryAction Config.params), fun armed due => ⟨fun choice => ?_,
    fun choice => ?_⟩⟩
  · exact internalAction_of_effect rstLow (triacChannel_of_normal _ ((fires_iff _).mpr ⟨armed, due⟩)
      ((takesNormal_iff _).mpr choice))
  · refine internalAction_of_effect rstLow
      (triacChannel_of_retry _ ((fires_iff _).mpr ⟨armed, due⟩) ?_)
    rwa [← Bool.not_eq_true, takesNormal_iff]

/-- Settles O35: the effect of each action of the filter, in each case of its rule. -/
theorem filterActions : Obligations.FilterActions := by
  unfold Obligations.FilterActions
  intro s rstLow v again
  exact ⟨fun moved => internalAction_of_effect rstLow (debounceStep_of_moved _ moved),
    fun still => internalAction_of_effect rstLow (debounceStep_of_still _ still),
    fun mode still => internalAction_of_effect rstLow (commit_of_still mode still),
    fun mode moved => internalAction_of_effect rstLow (abort_of_moved _ mode moved),
    fun mode changed => internalAction_of_effect rstLow (detect_of_changed _ mode changed)⟩

end Sys2Proof
end

section
/-! SUPPORT. The invariant at reset, through a tick, an operation and a step, and along every run. -/

namespace Sys2Proof.Machine

/-! ## The invariant of the block -/

theorem Inv.reset : Block.reset.Inv := by
  constructor <;> decide

/-- The invariant does not ask anything of ZC_PREV, and in ARM_FALL nothing of the captures. -/
theorem Inv.recapture {b : Block} (h : b.Inv) (fallT riseT zcCcr : Word) (zcPrev : Bool) :
    Block.Inv
      { b with
        zcPhase := .armFall, fallT := fallT, riseT := riseT, zcCcr := zcCcr, zcPrev := zcPrev } := by
  obtain ⟨h1, h2, h3, h4, h5, h6, h7, h8, h9, h10, h11, h12, h13, h14, h15, h16, h17, h18, h19⟩ := h
  constructor <;> first | assumption | simp

/-- Whatever the zero-crossing channel's action, its relations other than those of a running debounce
hold after it. -/
theorem Inv.zcChannel (zc : Bool) {b : Block} (h : b.Inv) :
    Block.Inv { zcChannel Config.params zc b.dbMode b with zcPhase := .armFall } := by
  unfold Machine.zcChannel
  by_cases periodic : b.zcPhase = .debRise ∧ b.zcExpired = true
  · rw [zcAction_of_expireRise _ zc _ periodic.1 periodic.2]
    exact Inv.recapture (Inv.periodicTick h) _ _ _ zc
  · rw [zcAction_of_not_expireRise _ zc _ b periodic]
    exact Inv.recapture h _ _ _ zc

/-- In a tick that starts in COUNTING the zero-crossing channel enters VERIFY in a periodic tick only,
which ends in ARM_FALL (43_debounce.md R185). -/
theorem zcChannel_verify (p : Config.Params) (zc : Bool) {b : Block} (mode : b.dbMode = .counting)
    (verify : (zcChannel p zc .counting b).dbMode = .verify) :
    (zcChannel p zc .counting b).zcPhase = .armFall := by
  by_cases periodic : b.zcPhase = .debRise ∧ b.zcExpired = true
  · obtain ⟨-, -, -, -, -, -, -, -, zcPhase, -⟩ :=
      zcChannel_of_expireRise p zc .counting periodic.1 periodic.2
    exact zcPhase
  · obtain ⟨-, -, -, dbMode, -⟩ := zcChannel_of_not_expireRise p zc .counting b periodic
    rw [dbMode, mode] at verify
    cases verify

theorem Inv.tick (pin : BitVec 3) (zc : Bool) {b : Block} (h : b.Inv) :
    (tick Config.params pin zc b).Inv := by
  have before : (Machine.beforeZc Config.params pin b).Inv := Inv.beforeZc Config.params pin h
  have mode : (Machine.beforeZc Config.params pin b).dbMode = b.dbMode := by simp
  obtain ⟨fallTarget, riseTarget⟩ := zcAction_targets zc b.dbMode before
  refine Inv.debounceTail ?_ (mode ▸ Inv.zcChannel zc before) fallTarget riseTarget
    (fun counting => ?_)
  · by_cases counting : b.dbMode = .counting
    · exact .inr counting
    · exact .inl ((zcChannel_filter_of_not_counting _ zc _ counting).1.trans mode)
  · rw [counting]
    exact zcChannel_verify _ zc (mode.trans counting)

/-! ## The invariant of the machine -/

/-- An operation of the hardware's surroundings keeps the invariant of the block and, while RST is high,
its reset values (70_reset_and_hazards.md R281). -/
theorem exec_blockInv {i : Instr} {s t : State} (hardware : i.isEvent = false) (inv : s.blk.Inv)
    (held : s.rst = true → s.blk = Block.reset) (run : exec i s = .next t) :
    t.blk.Inv ∧ (s.rst = true → t.blk = Block.reset) := by
  by_cases reset : i = .reset
  · subst reset
    cases run
    exact ⟨Inv.reset, fun _ => rfl⟩
  obtain ⟨pin, zc, rfl⟩ | ⟨access, -⟩ := tick_or_hostAccess ⟨reset, hardware⟩
  · cases rst : s.rst with
    | false =>
      cases (exec_tick rst pin zc).symm.trans run
      exact ⟨Inv.tick pin zc inv, nofun⟩
    | true =>
      cases (exec_tick_of_rst_high rst pin zc).symm.trans run
      exact ⟨Inv.reset, fun _ => rfl⟩
  · obtain same | ⟨rstLow, written⟩ := hostAccess_effect access run
    · rw [same]
      exact ⟨inv, held⟩
    · refine ⟨?_, fun high => absurd (rstLow.symm.trans high) (by decide)⟩
      obtain ⟨a0, d, -, written⟩ | ⟨a0, d, -, written⟩ | ⟨a0, d, -, written⟩ | ⟨a0, d, -, written⟩ :=
        written <;> rw [written]
      · exact Inv.setCtrl d inv
      · exact Inv.clearEvents d inv
      · exact Inv.setTdelay d inv
      · exact Inv.setDbmask d inv

/-- A level of the RST line keeps the invariant: a rising edge resets the block. -/
theorem State.Inv.setRst {s : State} (inv : s.Inv) (level : Bool) : (setRst level s).Inv := by
  refine ⟨?_, fun high => ?_, inv.hardwareInputs⟩
  · simp only [Machine.setRst]
    split
    · exact Machine.Inv.reset
    · exact inv.blockInv
  · have level : level = true := high
    subst level
    cases rst : s.rst with
    | false => simp [Machine.setRst, rst]
    | true => simpa [Machine.setRst, rst] using inv.heldInReset rst

/-- So does an operation word: it decodes to no internal action (30_encoding.md R89). -/
theorem State.Inv.runWord {s t : State} (inv : s.Inv) {w : OpWord}
    (run : runCode (.op w) s = .next t) : t.Inv := by
  cases decoded : decodeWord w with
  | error e => cases (runCode_of_error (c := .op w) decoded s).symm.trans run
  | ok i =>
    rw [runCode_of_ok (c := .op w) decoded] at run
    obtain ⟨u, run', rst, pending⟩ := exec_next i s
    cases run.symm.trans run'
    obtain ⟨blk, held⟩ := exec_blockInv (wordsNeverDecodeToEvents.1 w i decoded) inv.blockInv
      inv.heldInReset run
    exact ⟨blk, fun high => held (rst ▸ high), pending ▸ inv.hardwareInputs⟩

/-- The inputs that are left after the first are hardware inputs too. -/
theorem State.Inv.tail {s : State} (inv : s.Inv) {x : Input} {rest : List Input}
    (pending : s.pending = x :: rest) : State.Inv { s with pending := rest } :=
  ⟨inv.blockInv, inv.heldInReset, fun y mem =>
    inv.hardwareInputs y (pending ▸ List.mem_cons_of_mem x mem)⟩

end Sys2Proof.Machine

namespace Sys2Proof

open Machine

/-- Settles O57: each relation on the reset values, and no input is pending. -/
theorem invariantHoldsAtReset : Obligations.InvariantHoldsAtReset :=
  ⟨Inv.reset, nofun, nofun⟩

/-- Settles O58: the input taken is a word, whose instruction is no internal action, or a level of RST;
a bare event code is excluded by the invariant. -/
theorem everyStepKeepsTheInvariant : Obligations.EveryStepKeepsTheInvariant := by
  unfold Obligations.EveryStepKeepsTheInvariant
  intro s t inv run
  cases pending : s.pending with
  | nil =>
    cases (stateIsHeldWithNothingPending s pending).symm.trans run
    exact inv
  | cons x rest =>
    match x with
    | .code (.op w) => exact (inv.tail pending).runWord ((step_code pending).symm.trans run)
    | .code (.event c) =>
      cases inv.hardwareInputs (.code (.event c)) (by simp [pending])
    | .rst level =>
      cases (step_rst pending).symm.trans run
      exact (inv.tail pending).setRst level

/-- Every state of a run from a state with the invariant has it. -/
theorem Machine.Reaches.inv {s t : State} (reaches : Reaches s t) (inv : s.Inv) : t.Inv := by
  induction reaches with
  | refl => exact inv
  | next _ step ih => exact everyStepKeepsTheInvariant _ _ ih step

/-- Settles O59: the invariant holds along the run, and its first relation is the gate's; the type of
faults is empty. -/
theorem everyRunIsSafe : Obligations.EveryRunIsSafe := by
  unfold Obligations.EveryRunIsSafe
  intro s inv t reaches
  exact ⟨fun disarmed => ((reaches.inv inv).blockInv.disarmedIsOff disarmed).1, nofun⟩

end Sys2Proof
end

section
/-! SUPPORT. Runs without resets: the induction over one, and the count of its ticks (20_memory.md R73). -/

namespace Sys2Proof.Machine

/-- The induction over a run without resets, for steps that are known to be operations of the run. -/
theorem run_induction_of_mem (P : Nat → State → Prop) {is : List Instr}
    (htick : ∀ n s pin zc, .tick pin zc ∈ is → s.rst = false → P n s →
      P (n + 1) { s with blk := tick Config.params pin zc s.blk, rdata := none })
    (hhost : ∀ n i s t, i ∈ is → s.rst = false → isHostAccess i = true → exec i s = .next t →
      P n s → P n t)
    {n : Nat} {s t : State} (rstLow : s.rst = false) (noReset : NoReset is) (start : P n s)
    (run : execAll is s = .next t) : P (n + is.countP isTick) t := by
  induction is generalizing n s with
  | nil =>
    cases run
    exact start
  | cons i is ih =>
    have rest {m : Nat} {u : State} := ih (n := m) (s := u)
      (fun n s pin zc mem => htick n s pin zc (List.mem_cons_of_mem i mem))
      (fun n j s t mem => hhost n j s t (List.mem_cons_of_mem i mem))
    obtain ⟨head, tail⟩ := List.forall_mem_cons.mp noReset
    obtain ⟨u, runHead, rst, -⟩ := exec_next i s
    simp only [execAll, runHead] at run
    obtain ⟨pin, zc, rfl⟩ | ⟨access, notTick⟩ := tick_or_hostAccess head
    · cases (exec_tick rstLow pin zc).symm.trans runHead
      rw [List.countP_cons_of_pos rfl, ← Nat.add_assoc, Nat.add_right_comm]
      exact rest (rst.trans rstLow) tail (htick n s pin zc List.mem_cons_self rstLow start) run
    · rw [List.countP_cons_of_neg (by simp [notTick])]
      exact rest (rst.trans rstLow) tail
        (hhost n i s u List.mem_cons_self rstLow access runHead start) run

/-- One more tick than `n`, on the counter. -/
theorem count_succ (t : Word) (n : Nat) :
    t + BitVec.ofNat 16 n + 1 = t + BitVec.ofNat 16 (n + 1) := by
  rw [BitVec.ofNat_add, BitVec.add_assoc]
  rfl

end Sys2Proof.Machine

namespace Sys2Proof

open Machine

/-- Settles O52, by induction on the run: a tick adds 1 to TCNT and a host access nothing. -/
theorem snapshotProtocol : Obligations.SnapshotProtocol := by
  unfold Obligations.SnapshotProtocol
  intro is s t rstLow noReset run
  have counts : t.blk.tcnt = s.blk.tcnt + BitVec.ofNat 16 (0 + is.countP isTick) := by
    refine run_induction (fun n u => u.blk.tcnt = s.blk.tcnt + BitVec.ofNat 16 n)
      (fun n u pin zc _ h => ?_) (fun n i u v _ access run h => ?_) rstLow noReset (by simp) run
    · simp only [tick_frame, h, count_succ]
    · exact (hostAccessLeavesTheMeasurements i u v access run).1.trans h
  rw [Nat.zero_add] at counts
  refine ⟨counts, fun few same => ?_⟩
  rw [counts] at same
  exact (count_offset_inj s.blk.tcnt few (by decide)).mp (by simpa using same)

end Sys2Proof
end

section
/-! SUPPORT. The shortest capture cycle (41_zero_crossing.md R136): what a run measures, and where the
zero-crossing channel can be at each tick after a falling capture. -/

namespace Sys2Proof.Machine

/-! ## What a run measures -/

/-- No measurement between `start` and `b`; STATUS.TICK may have been cleared by the host. -/
structure Block.Unmeasured (start b : Block) : Prop where
  peak : b.peak = start.peak
  pkv : b.pkv = start.pkv
  halfper : b.halfper = start.halfper
  lock : b.lock = start.lock
  stTick : start.stTick = false → b.stTick = false

theorem Block.Unmeasured.refl (b : Block) : b.Unmeasured b := ⟨rfl, rfl, rfl, rfl, id⟩

/-- A tick that measures nothing. -/
theorem Block.Unmeasured.of_sameMeasurement {start b c : Block} (h : start.Unmeasured b)
    (same : c.SameMeasurement b) : start.Unmeasured c := by
  obtain ⟨peak, pkv, halfper, lock, stTick, -⟩ := same
  exact ⟨peak.trans h.peak, pkv.trans h.pkv, halfper.trans h.halfper, lock.trans h.lock,
    fun off => stTick.trans (h.stTick off)⟩

/-- A RD or WR measures nothing, and sets no event (20_memory.md R66). -/
theorem Block.Unmeasured.hostAccess {start : Block} {s t : State} {i : Instr}
    (h : start.Unmeasured s.blk) (access : isHostAccess i = true) (run : exec i s = .next t) :
    start.Unmeasured t.blk := by
  obtain ⟨-, -, -, peak, pkv, halfper, lock, -, -, -, -, -, -, -, stTick, -⟩ :=
    hostAccessLeavesTheMeasurements i s t access run
  exact ⟨peak.trans h.peak, pkv.trans h.pkv, halfper.trans h.halfper, lock.trans h.lock,
    fun off => by simpa [h.stTick off] using stTick⟩

/-! ## The shortest capture cycle -/

/-- Where the zero-crossing channel can be `n` ticks after the falling capture at count `t0`: in the
falling debounce, waiting for the rising edge, or in the rising debounce of an edge captured `r` ticks
after the falling one (41_zero_crossing.md R136). -/
inductive CycleStage (t0 : Word) (n : Nat) (b : Block) : Prop where
  | debFall (phase : b.zcPhase = .debFall) (target : b.zcCcr = t0 + BitVec.ofNat 16 1000)
      (early : n < 1000)
  | armRise (phase : b.zcPhase = .armRise) (late : 1000 ≤ n)
  | debRise (r : Nat) (phase : b.zcPhase = .debRise)
      (target : b.zcCcr = t0 + BitVec.ofNat 16 (r + 4000)) (first : 1001 ≤ r) (past : r ≤ n)
      (early : n < r + 4000)

/-- A stage depends on the phase and the target only. -/
theorem CycleStage.congr {t0 : Word} {n : Nat} {b c : Block} (h : CycleStage t0 n b)
    (zcPhase : c.zcPhase = b.zcPhase) (zcCcr : c.zcCcr = b.zcCcr) : CycleStage t0 n c := by
  cases h with
  | debFall phase target early =>
    exact .debFall (zcPhase.trans phase) (zcCcr.trans target) early
  | armRise phase late => exact .armRise (zcPhase.trans phase) late
  | debRise r phase target first past early =>
    exact .debRise r (zcPhase.trans phase) (zcCcr.trans target) first past early

/-- `n` ticks after the falling capture of `start`: that capture still stands, and before tick 5001
nothing has been measured since. -/
structure Block.InCycle (start b : Block) (n : Nat) : Prop where
  tcnt : b.tcnt = start.tcnt + BitVec.ofNat 16 n
  fallT : b.fallT = start.fallT
  stage : n < 5001 → start.Unmeasured b ∧ CycleStage start.tcnt n b

/-- The tick in which the channel takes no action and no stage ends. -/
theorem Block.InCycle.of_quiet {start b t : Block} {n : Nat} (h : start.InCycle b n)
    (tcnt : t.tcnt = b.tcnt + 1) (measured : start.Unmeasured b)
    (quiet : t.SameCapture b ∧ t.SameMeasurement b) (stage : CycleStage start.tcnt (n + 1) b) :
    start.InCycle t (n + 1) := by
  obtain ⟨⟨zcPhase, fallT, -, zcCcr⟩, same⟩ := quiet
  exact ⟨by rw [tcnt, h.tcnt, count_succ], fallT.trans h.fallT,
    fun _ => ⟨measured.of_sameMeasurement same, stage.congr zcPhase zcCcr⟩⟩

/-- A tick of the cycle: each stage lasts until its target or its edge, and the rising debounce ends at
tick 5001 at the earliest. -/
theorem Block.InCycle.tick {start b : Block} {n : Nat} (h : start.InCycle b n) (short : n < 5001)
    (pin : BitVec 3) (zc : Bool) : start.InCycle (tick Config.params pin zc b) (n + 1) := by
  obtain ⟨measured, stage⟩ := h.stage short
  have tcnt : (Machine.tick Config.params pin zc b).tcnt = b.tcnt + 1 := by simp
  have next : b.tcnt + 1 = start.tcnt + BitVec.ofNat 16 (n + 1) := by rw [h.tcnt, count_succ]
  cases stage with
  | debFall phase target early =>
    have due_iff : b.tcnt + 1 = b.zcCcr ↔ n + 1 = 1000 := by
      rw [next, target]
      exact count_offset_inj _ (by omega) (by omega)
    by_cases last : n + 1 = 1000
    · obtain ⟨zcPhase, fallT, -, -, same⟩ :=
        tick_of_expireFall Config.params pin zc phase (due_iff.mpr last)
      exact ⟨tcnt.trans next, fallT.trans h.fallT,
        fun _ => ⟨measured.of_sameMeasurement same, .armRise zcPhase (by omega)⟩⟩
    · exact h.of_quiet tcnt measured
        (tick_of_no_zcAction Config.params pin (by simp [phase]) (by simp [phase])
          fun _ => mt due_iff.mp last)
        (.debFall phase target (by omega))
  | armRise phase late =>
    by_cases edge : b.zcPrev = false ∧ zc = true
    · obtain ⟨low, rfl⟩ := edge
      obtain ⟨-, zcCcr, zcPhase, fallT, same⟩ := tick_of_rise Config.params pin phase low
      refine ⟨tcnt.trans next, fallT.trans h.fallT, fun _ => ⟨measured.of_sameMeasurement same,
        .debRise (n + 1) zcPhase ?_ (by omega) le_rfl (by omega)⟩⟩
      rw [zcCcr, next, BitVec.ofNat_add (n + 1) 4000, ← BitVec.add_assoc]
      rfl
    · exact h.of_quiet tcnt measured
        (tick_of_no_zcAction Config.params pin (by simp [phase]) (fun _ => edge) (by simp [phase]))
        (.armRise phase (by omega))
  | debRise r phase target first past early =>
    have due_iff : b.tcnt + 1 = b.zcCcr ↔ n + 1 = r + 4000 := by
      rw [next, target]
      exact count_offset_inj _ (by omega) (by omega)
    by_cases last : n + 1 = r + 4000
    · obtain ⟨⟨-, fallT, -, -⟩, -⟩ :=
        tick_of_periodic Config.params pin zc phase (due_iff.mpr last)
      exact ⟨tcnt.trans next, fallT.trans h.fallT, fun before => absurd before (by omega)⟩
    · exact h.of_quiet tcnt measured
        (tick_of_no_zcAction Config.params pin (by simp [phase]) (by simp [phase])
          fun _ => mt due_iff.mp last)
        (.debRise r phase target first (by omega) (by omega))

/-- The host does not move the cycle (20_memory.md R66). -/
theorem Block.InCycle.hostAccess {start : Block} {s t : State} {n : Nat} {i : Instr}
    (h : start.InCycle s.blk n) (access : isHostAccess i = true) (run : exec i s = .next t) :
    start.InCycle t.blk n := by
  obtain ⟨tcnt, -, ⟨zcPhase, fallT, -, zcCcr⟩, -⟩ :=
    hostAccessLeavesTheMeasurements i s t access run
  exact ⟨tcnt.trans h.tcnt, fallT.trans h.fallT, fun short =>
    ⟨(h.stage short).1.hostAccess access run, (h.stage short).2.congr zcPhase zcCcr⟩⟩

end Sys2Proof.Machine

namespace Sys2Proof

open Machine

/-- Settles O53, by induction on the run: the two debounces and the edge between them take 5001 ticks up
to the periodic tick, and the next capture comes in a later tick. -/
theorem shortestCaptureCycle : Obligations.ShortestCaptureCycle := by
  unfold Obligations.ShortestCaptureCycle
  intro is s t rstLow noReset phase captured target run
  have start : s.blk.InCycle s.blk 0 :=
    ⟨by simp, rfl, fun _ => ⟨.refl _, .debFall phase target (by decide)⟩⟩
  have cycle : 0 + is.countP isTick < 5002 → s.blk.InCycle t.blk (0 + is.countP isTick) :=
    run_induction (fun n u => n < 5002 → s.blk.InCycle u.blk n)
      (fun n u pin zc _ h short => (h (by omega)).tick (by omega) pin zc)
      (fun n i u v _ access run h short => (h short).hostAccess access run)
      rstLow noReset (fun _ => start) run
  rw [Nat.zero_add] at cycle
  refine ⟨fun short => (cycle short).fallT, fun short => ?_⟩
  obtain ⟨measured, -⟩ := (cycle (by omega)).stage short
  exact ⟨measured.peak, measured.pkv, measured.halfper, measured.lock, measured.stTick⟩

end Sys2Proof
end

section
/-! SUPPORT. The zero-crossing channel without mains (60_exceptions.md R264; 43_debounce.md R195). -/

namespace Sys2Proof.Machine

/-- A tick outside VERIFY that is no periodic tick neither commits nor enters VERIFY (43_debounce.md
R181, R188). -/
theorem tick_of_not_verify (p : Config.Params) (pin : BitVec 3) (zc : Bool) {b : Block}
    (mode : b.dbMode ≠ .verify) (notPeriodic : ¬ (b.zcPhase = .debRise ∧ b.tcnt + 1 = b.zcCcr)) :
    (tick p pin zc b).dbMode ≠ .verify ∧ (tick p pin zc b).SameCommit b := by
  obtain ⟨-, -, -, dbMode, -⟩ :=
    zcChannel_of_not_expireRise p zc b.dbMode (beforeZc p pin b) (by simpa using notPeriodic)
  have modeKept : (zcChannel p zc b.dbMode (beforeZc p pin b)).dbMode = b.dbMode :=
    dbMode.trans (by simp)
  obtain ⟨stays, -⟩ := debounceTail_of_not_verify p mode (modeKept ▸ mode)
  exact ⟨stays, tick_sameCommit_of_not_verify p pin zc mode⟩

/-- Between `start` and `b` no commit and no VERIFY; STATUS.DBC may have been cleared by the host. -/
structure Block.Uncommitted (start b : Block) : Prop where
  dbMode : b.dbMode ≠ .verify
  dbv : b.dbv = start.dbv
  dbchg : b.dbchg = start.dbchg
  stDbc : start.stDbc = false → b.stDbc = false

/-- The zero-crossing channel waits in the ARM phase of `start`, and nothing has happened since. -/
structure Block.Waiting (start b : Block) : Prop where
  capture : b.SameCapture start
  zcPrev : b.zcPrev = start.zcPrev
  measurement : start.Unmeasured b
  filter : start.dbMode ≠ .verify → start.Uncommitted b

theorem Block.Waiting.refl (b : Block) : b.Waiting b :=
  ⟨⟨rfl, rfl, rfl, rfl⟩, rfl, .refl b, fun mode => ⟨mode, rfl, rfl, id⟩⟩

theorem Block.SameCapture.trans {a b c : Block} (h : a.SameCapture b) (h' : b.SameCapture c) :
    a.SameCapture c := by
  obtain ⟨zcPhase, fallT, riseT, zcCcr⟩ := h
  obtain ⟨zcPhase', fallT', riseT', zcCcr'⟩ := h'
  exact ⟨zcPhase.trans zcPhase', fallT.trans fallT', riseT.trans riseT', zcCcr.trans zcCcr'⟩

/-- The phase is still that of `start`. -/
theorem Block.Waiting.arm {start b : Block} (h : start.Waiting b)
    (arm : start.zcPhase = .armFall ∨ start.zcPhase = .armRise) :
    b.zcPhase = .armFall ∨ b.zcPhase = .armRise := by
  obtain ⟨zcPhase, -⟩ := h.capture
  rwa [zcPhase]

/-- An ARM phase has no periodic tick. -/
theorem not_periodic_of_arm {b : Block} (arm : b.zcPhase = .armFall ∨ b.zcPhase = .armRise) :
    ¬ (b.zcPhase = .debRise ∧ b.tcnt + 1 = b.zcCcr) := by
  rintro ⟨phase, -⟩
  simp [phase] at arm

/-- A tick with the level unchanged is waited out (41_zero_crossing.md R121, R123). -/
theorem Block.Waiting.tick {start b : Block} (h : start.Waiting b)
    (arm : start.zcPhase = .armFall ∨ start.zcPhase = .armRise) (pin : BitVec 3) :
    start.Waiting (tick Config.params pin start.zcPrev b) := by
  rw [← h.zcPrev]
  obtain ⟨capture, measurement, -⟩ := tick_of_waiting Config.params pin b (h.arm arm)
  refine ⟨capture.trans h.capture, by simp [h.zcPrev], h.measurement.of_sameMeasurement measurement,
    fun mode => ?_⟩
  have filter := h.filter mode
  obtain ⟨dbMode, -, dbv, dbchg, stDbc⟩ :=
    tick_of_not_verify Config.params pin b.zcPrev filter.dbMode (not_periodic_of_arm (h.arm arm))
  exact ⟨dbMode, dbv.trans filter.dbv, dbchg.trans filter.dbchg,
    fun off => stDbc.trans (filter.stDbc off)⟩

/-- So is a RD or WR (20_memory.md R66). -/
theorem Block.Waiting.hostAccess {start : Block} {s t : State} {i : Instr}
    (h : start.Waiting s.blk) (access : isHostAccess i = true) (run : exec i s = .next t) :
    start.Waiting t.blk := by
  obtain ⟨-, zcPrev, capture, -, -, -, -, -, -, dbMode, -, dbv, dbchg, -, -, stDbc, -⟩ :=
    hostAccessLeavesTheMeasurements i s t access run
  refine ⟨capture.trans h.capture, zcPrev.trans h.zcPrev, h.measurement.hostAccess access run,
    fun mode => ?_⟩
  have filter := h.filter mode
  exact ⟨dbMode ▸ filter.dbMode, dbv.trans filter.dbv, dbchg.trans filter.dbchg,
    fun off => by simpa [filter.stDbc off] using stDbc⟩

end Sys2Proof.Machine

namespace Sys2Proof

open Machine

/-- Settles O54, by induction on the run: without an edge the ARM phase takes no action. -/
theorem noMainsNoPeriodicTick : Obligations.NoMainsNoPeriodicTick := by
  unfold Obligations.NoMainsNoPeriodicTick
  intro is s t rstLow noReset arm noMains run
  have waiting : s.blk.Waiting t.blk :=
    run_induction_of_mem (fun _ u => s.blk.Waiting u.blk)
      (fun n u pin zc mem _ h => noMains pin zc mem ▸ h.tick arm pin)
      (fun n i u v _ _ access run h => h.hostAccess access run) rstLow noReset (n := 0) (.refl _) run
  have measured := waiting.measurement
  refine ⟨waiting.capture, measured.peak, measured.pkv, measured.halfper, measured.lock,
    waiting.zcPrev, measured.stTick, fun mode => ?_⟩
  have filter := waiting.filter mode
  exact ⟨filter.dbMode, filter.dbv, filter.dbchg, filter.stDbc⟩

end Sys2Proof
end

section
/-! SUPPORT. The TRIAC driver with TDELAY at 0 (42_triac.md R161; 70_reset_and_hazards.md R291). -/

namespace Sys2Proof.Machine

/-- The driver is disabled and idle (42_triac.md R161). -/
structure Block.DriverOff (b : Block) : Prop where
  tdelay : b.tdelay = 0
  armed : b.armed = false
  gate : b.gate = false
  goff : b.goff = false

theorem Block.DriverOff.tick {b : Block} (h : b.DriverOff) (pin : BitVec 3) (zc : Bool) :
    (tick Config.params pin zc b).DriverOff := by
  have gate : (Machine.tick Config.params pin zc b).gate = false := by
    simp [tick_gate, h.armed, h.gate]
  refine ⟨by simpa using h.tdelay, ?_, gate, tick_goff_of_gate_off gate⟩
  rw [← Bool.not_eq_true]
  intro arms
  obtain armed | delay := (armed_tick Config.params pin zc b).2 arms
  · exact absurd (h.armed.symm.trans armed) (by decide)
  · exact delay h.tdelay

/-- Nothing but a nonzero write to TDELAY ends that, at either level of RST (42_triac.md R161;
70_reset_and_hazards.md R291). -/
theorem Block.DriverOff.exec {s t : State} {i : Instr} (h : s.blk.DriverOff)
    (hardware : i.isEvent = false) (zero : ∀ a0 d, i = .wrTdelay a0 d → d = 0)
    (run : exec i s = .next t) : t.blk.DriverOff := by
  by_cases reset : i = .reset
  · subst reset
    cases run
    exact ⟨rfl, rfl, rfl, rfl⟩
  obtain ⟨pin, zc, rfl⟩ | ⟨access, -⟩ := tick_or_hostAccess ⟨reset, hardware⟩
  · cases rst : s.rst with
    | false =>
      cases (exec_tick rst pin zc).symm.trans run
      exact h.tick pin zc
    | true =>
      cases (exec_tick_of_rst_high rst pin zc).symm.trans run
      exact ⟨rfl, rfl, rfl, rfl⟩
  · obtain ⟨tdelay, armed, gate, goff⟩ := h
    obtain same | ⟨-, ⟨a0, d, -, written⟩ | ⟨a0, d, -, written⟩ | ⟨a0, d, write, written⟩ |
      ⟨a0, d, -, written⟩⟩ := hostAccess_effect access run
    · rw [same]
      exact ⟨tdelay, armed, gate, goff⟩
    · rw [written]
      exact ⟨tdelay, armed, gate, goff⟩
    · rw [written]
      exact ⟨tdelay, armed, gate, goff⟩
    · rw [written, zero a0 d write]
      constructor <;> simp
    · rw [written]
      exact ⟨tdelay, armed, gate, goff⟩

end Sys2Proof.Machine

namespace Sys2Proof

open Machine

/-- Settles O55, by induction on the run. -/
theorem zeroDelayNeverFires : Obligations.ZeroDelayNeverFires := by
  unfold Obligations.ZeroDelayNeverFires
  intro is s t tdelay armed gate goff allowed run
  have off : s.blk.DriverOff := ⟨tdelay, armed, gate, goff⟩
  clear tdelay armed gate goff
  induction is generalizing s with
  | nil =>
    cases run
    exact ⟨off.tdelay, off.armed, off.gate, off.goff⟩
  | cons i is ih =>
    obtain ⟨⟨hardware, zero⟩, allowed⟩ := List.forall_mem_cons.mp allowed
    obtain ⟨u, first, -⟩ := exec_next i s
    simp only [execAll, first] at run
    exact ih u allowed run (off.exec hardware zero first)

end Sys2Proof
end

section
/-! SUPPORT. The retry pulse (42_triac.md R157, R158). -/

namespace Sys2Proof.Machine

/-- The number of ticks that a retry adds, of at least 1 (00_scope.md R7; 42_triac.md R156). -/
theorem triacExtend_pos : 1 ≤ Config.triacExtend.toNat := by
  have := Config.triacExtendLessOne.isLt
  simp only [Config.triacExtend, BitVec.toNat_ofNat]
  omega

/-- `n` ticks after a retry action that left the block `start`: the pulse runs on until the match at
tick TRIAC_EXTEND takes the normal action, and the next tick ends it unless it matches
(42_triac.md R157, R158). -/
structure Block.InRetry (start b : Block) (n : Nat) : Prop where
  waiting : start.Waiting b
  tcnt : b.tcnt = start.tcnt + BitVec.ofNat 16 n
  tdelay : b.tdelay = start.tdelay
  armed : b.armed = true
  before : n < Config.triacExtend.toNat →
    b.gate = true ∧ b.goff = false ∧ b.delayOff = true ∧ b.zct = start.zct ∧
      b.tcmp = start.tcnt + BitVec.ofNat 16 Config.triacExtend.toNat
  last : n = Config.triacExtend.toNat →
    b.gate = true ∧ b.goff = true ∧ b.delayOff = false ∧ b.zct = start.zct + start.halfper ∧
      b.tcmp = start.zct + start.halfper + start.tdelay
  after : n = Config.triacExtend.toNat + 1 →
    start.zct + start.halfper + start.tdelay ≠ start.tcnt + Config.triacExtend + 1 →
      b.gate = false ∧ b.goff = false

/-- A tick of the retry pulse. -/
theorem Block.InRetry.tick {start b : Block} {n : Nat} (h : start.InRetry b n)
    (arm : start.zcPhase = .armFall ∨ start.zcPhase = .armRise) (pin : BitVec 3) :
    start.InRetry (tick Config.params pin start.zcPrev b) (n + 1) := by
  have notPeriodic := not_periodic_of_arm (h.waiting.arm arm)
  have next : b.tcnt + 1 = start.tcnt + BitVec.ofNat 16 (n + 1) := by rw [h.tcnt, count_succ]
  have small := Config.triacExtend.isLt
  refine ⟨h.waiting.tick arm pin, by simpa using next, by simpa using h.tdelay,
    (armed_tick Config.params pin _ b).1 h.armed, fun more => ?_, fun atTarget => ?_,
    fun ended other => ?_⟩
  · obtain ⟨gate, goff, delayOff, zct, tcmp⟩ := h.before (by omega)
    have noMatch : ¬ (b.armed = true ∧ b.tcnt + 1 = b.tcmp) := by
      rintro ⟨-, due⟩
      rw [next, tcmp, count_offset_inj _ (by omega) (by omega)] at due
      omega
    obtain ⟨⟨zct', tcmp', -, delayOff'⟩, gate', goff', -⟩ :=
      tick_of_no_match Config.params pin start.zcPrev noMatch notPeriodic
    exact ⟨by rw [gate', gate, goff]; rfl, goff', delayOff'.trans delayOff, zct'.trans zct,
      tcmp'.trans tcmp⟩
  · obtain ⟨-, -, delayOff, zct, tcmp⟩ := h.before (by omega)
    have due : b.tcnt + 1 = b.tcmp := by rw [next, tcmp, atTarget]
    obtain ⟨gate', goff', delayOff', zct', tcmp', -⟩ := tick_of_normal Config.params pin start.zcPrev
      h.armed due (by simp [Block.takesNormal, delayOff]) notPeriodic
    rw [zct, h.waiting.measurement.halfper] at zct' tcmp'
    rw [h.tdelay] at tcmp'
    exact ⟨gate', goff', delayOff', zct', tcmp'⟩
  · obtain ⟨-, goff, -, -, tcmp⟩ := h.last (by omega)
    have noMatch : ¬ (b.armed = true ∧ b.tcnt + 1 = b.tcmp) := by
      rintro ⟨-, due⟩
      rw [next, tcmp, ended, ← count_succ, BitVec.ofNat_toNat, BitVec.setWidth_eq] at due
      exact other due.symm
    obtain ⟨-, gate', goff', -⟩ :=
      tick_of_no_match Config.params pin start.zcPrev noMatch notPeriodic
    exact ⟨by rw [gate', goff]; simp, goff'⟩

/-- The operations of a list of ticks are ticks, and as many. -/
theorem ticks_noReset (levels : List (BitVec 3 × Bool)) : NoReset (ticks levels) := by
  intro i mem
  obtain ⟨x, -, rfl⟩ := List.mem_map.mp mem
  exact ⟨nofun, rfl⟩

theorem ticks_countP (levels : List (BitVec 3 × Bool)) :
    (ticks levels).countP isTick = levels.length := by
  simp [ticks, List.countP_map, Function.comp_def, isTick]

theorem isTick_of_mem_ticks {levels : List (BitVec 3 × Bool)} {i : Instr} (mem : i ∈ ticks levels) :
    isTick i = true := by
  obtain ⟨x, -, rfl⟩ := List.mem_map.mp mem
  rfl

end Sys2Proof.Machine

namespace Sys2Proof

open Machine

/-- Settles O56, by induction on the ticks: while the channel waits, the TRIAC state depends on the
number of ticks only. -/
theorem retryPulseLength : Obligations.RetryPulseLength := by
  unfold Obligations.RetryPulseLength
  intro levels s rstLow arm noMains armed gate goff delayOff tcmp
  obtain ⟨t, run⟩ := execAll_next (ticks levels) s
  have start : s.blk.InRetry s.blk 0 :=
    ⟨.refl _, by simp, rfl, armed, fun _ => ⟨gate, goff, delayOff, rfl, by simpa using tcmp⟩,
      fun none => absurd triacExtend_pos (by omega), fun none => absurd none (by omega)⟩
  have retry : s.blk.InRetry t.blk (0 + (ticks levels).countP isTick) :=
    run_induction_of_mem (fun n u => s.blk.InRetry u.blk n)
      (fun n u pin zc mem _ h => noMains pin zc mem ▸ h.tick arm pin)
      (fun n i u v mem _ access _ _ =>
        absurd access (by simp [isHostAccess, isTick_of_mem_ticks mem]))
      rstLow (ticks_noReset levels) start run
  rw [Nat.zero_add, ticks_countP] at retry
  refine ⟨t, run, fun more => ?_, fun last => ?_, retry.after⟩
  · obtain ⟨gate, -, delayOff, -⟩ := retry.before more
    exact ⟨gate, delayOff⟩
  · obtain ⟨gate, goff, delayOff, zct, tcmp⟩ := retry.last last
    exact ⟨gate, delayOff, goff, zct, tcmp⟩

end Sys2Proof
end
